-- ==== Sys2Proof/Word.lean ====
section
/-! DEFINITION. The machine's words (spec/00_scope.md R4: XLEN = 32, PSR_WIDTH = 32, ILEN = 32). -/

namespace Sys2Proof

/-- A general register, the CPSR, an instruction word or an instruction address: 32 bits (R4). -/
abbrev Word := BitVec 32

/-- One byte of the byte-addressed store behind the word-read primitive (20_memory.md R33). -/
abbrev Byte := BitVec 8

/-- The number of a general register, 0 to 15 (10_state.md R10). -/
abbrev Reg := Fin 16

end Sys2Proof
end

