-- ==== Sys2Proof/Config.lean ====
section
/-! DEFINITION. The implementation parameters of spec/00_scope.md R4 at the values the spec gives them, and the
model's one free value. -/

namespace Sys2Proof

/-- ROR_IMM0_MODE: the two meanings the spec names for ROR with immediate amount 0 (41_barrel_shifter.md R75, D5). -/
inductive RorImm0Mode where
  | ror32
  | rrx
  deriving DecidableEq, Repr

/-- REG_SHIFT_BIT7_SET: the two treatments the spec names for the register-shift form with bit 7 set
(30_encoding.md R54, D6). -/
inductive RegShiftBit7 where
  | fault
  | ignoreBit7
  deriving DecidableEq, Repr

namespace Config

/-- RESET_CPSR (10_state.md R26, D2). UNVERIFIED: the spec's decision D2. Log 2, unsafe. -/
def resetCpsr : Word := 0x000000D3#32

/-- ROR_IMM0_MODE. UNVERIFIED: the spec's decision D5. Log 5, unsafe. -/
def rorImm0Mode : RorImm0Mode := .ror32

/-- REG_SHIFT_BIT7_SET. UNVERIFIED: the spec's decision D6. Log 6, safe. -/
def regShiftBit7Set : RegShiftBit7 := .fault

/-- R15_READ_OFFSET. UNVERIFIED: the spec's decision D9. Log 8, unsafe. -/
def r15ReadOffset : Word := 0#32

/-- REG_SHIFT_AMOUNT_MASK (30_encoding.md R49, 41_barrel_shifter.md R76). Log 4. -/
def regShiftAmountMask : Byte := 0x1F#8

/-- What HOST_ADVANCE adds to register 15 after a step that did not fault (45_fetch_execute.md R149, D12).
UNVERIFIED: the spec's decision D12. Log 11. -/
def hostAdvanceBy : Word := 4#32

/-- What a byte of memory that nothing has written reads as. DESIGN CHOICE: the spec gives memory no contents
(U13). Log 16, unsafe for claims about a memory with unlisted bytes. -/
def unlistedByte : Byte := 0#8

/-- FREE VALUE: the word the memory subsystem returns for a word read at an address that is not a multiple of 4
(possible only with T = 1). The spec gives it "any value" (93_implementation_defined.md U15; 20_memory.md R34). It is a
function of the memory and the address because the read is stable while memory does not change (R31, D17). No body:
nothing can be proved of its value. Log 13. -/
opaque halfwordWord (mem : List Host.Cell) (addr : Word) : Word

end Config

end Sys2Proof
end

