-- ==== Sys2Proof/Syntax.lean ====
section
/-! DEFINITION. The instructions: one constructor per row of spec/opcode_table.json (30_encoding.md R41 to R45;
60_exceptions.md R151, R152 for the five faulting rows). -/

namespace Sys2Proof

/-- The fifteen conditions an instruction can carry (40_condition_evaluator.md R61). Code 15 is no condition: a word
that carries it is the row `reservedCondition`. -/
inductive Cond where
  | eq | ne | cs | cc | mi | pl | vs | vc | hi | ls | ge | lt | gt | le | al
  deriving DecidableEq, Repr

/-- The shift operation of field `type` (30_encoding.md R43). -/
inductive ShiftType where
  | lsl | lsr | asr | ror
  deriving DecidableEq, Repr

/-- The sixteen operations (30_encoding.md R44), in the order of their operation codes. -/
inductive AluOp where
  | and | eor | sub | rsb | add | adc | sbc | rsc | tst | teq | cmp | cmn | orr | mov | bic | mvn
  deriving DecidableEq, Repr

/-- Operand 2, one constructor per format (30_encoding.md R42): `DP_IMM`, `DP_SHI`, `DP_SHR`. -/
inductive Operand2 where
  | imm (rot : BitVec 4) (imm8 : BitVec 8)
  | shi (shamt : BitVec 5) (ty : ShiftType) (rm : Reg)
  | shr (rs : Reg) (ty : ShiftType) (rm : Reg)
  deriving DecidableEq, Repr

/-- An instruction: one constructor per row of the opcode table. The name is the operation and the format (`Imm` is
`DP_IMM`, `Shi` is `DP_SHI`, `Shr` is `DP_SHR`); `sf` is the S bit. A field an operation does not use (Rn of MOV and
MVN, Rd of the comparisons) is kept, any value is legal (30_encoding.md R55). The five faulting rows carry the whole
instruction word, which is what the fault records (60_exceptions.md R151, R152). -/
inductive Instr where
  | andImm (cond : Cond) (sf : Bool) (rn rd : Reg) (rot : BitVec 4) (imm8 : BitVec 8)
  | andShi (cond : Cond) (sf : Bool) (rn rd : Reg) (shamt : BitVec 5) (ty : ShiftType) (rm : Reg)
  | andShr (cond : Cond) (sf : Bool) (rn rd rs : Reg) (ty : ShiftType) (rm : Reg)
  | eorImm (cond : Cond) (sf : Bool) (rn rd : Reg) (rot : BitVec 4) (imm8 : BitVec 8)
  | eorShi (cond : Cond) (sf : Bool) (rn rd : Reg) (shamt : BitVec 5) (ty : ShiftType) (rm : Reg)
  | eorShr (cond : Cond) (sf : Bool) (rn rd rs : Reg) (ty : ShiftType) (rm : Reg)
  | subImm (cond : Cond) (sf : Bool) (rn rd : Reg) (rot : BitVec 4) (imm8 : BitVec 8)
  | subShi (cond : Cond) (sf : Bool) (rn rd : Reg) (shamt : BitVec 5) (ty : ShiftType) (rm : Reg)
  | subShr (cond : Cond) (sf : Bool) (rn rd rs : Reg) (ty : ShiftType) (rm : Reg)
  | rsbImm (cond : Cond) (sf : Bool) (rn rd : Reg) (rot : BitVec 4) (imm8 : BitVec 8)
  | rsbShi (cond : Cond) (sf : Bool) (rn rd : Reg) (shamt : BitVec 5) (ty : ShiftType) (rm : Reg)
  | rsbShr (cond : Cond) (sf : Bool) (rn rd rs : Reg) (ty : ShiftType) (rm : Reg)
  | addImm (cond : Cond) (sf : Bool) (rn rd : Reg) (rot : BitVec 4) (imm8 : BitVec 8)
  | addShi (cond : Cond) (sf : Bool) (rn rd : Reg) (shamt : BitVec 5) (ty : ShiftType) (rm : Reg)
  | addShr (cond : Cond) (sf : Bool) (rn rd rs : Reg) (ty : ShiftType) (rm : Reg)
  | adcImm (cond : Cond) (sf : Bool) (rn rd : Reg) (rot : BitVec 4) (imm8 : BitVec 8)
  | adcShi (cond : Cond) (sf : Bool) (rn rd : Reg) (shamt : BitVec 5) (ty : ShiftType) (rm : Reg)
  | adcShr (cond : Cond) (sf : Bool) (rn rd rs : Reg) (ty : ShiftType) (rm : Reg)
  | sbcImm (cond : Cond) (sf : Bool) (rn rd : Reg) (rot : BitVec 4) (imm8 : BitVec 8)
  | sbcShi (cond : Cond) (sf : Bool) (rn rd : Reg) (shamt : BitVec 5) (ty : ShiftType) (rm : Reg)
  | sbcShr (cond : Cond) (sf : Bool) (rn rd rs : Reg) (ty : ShiftType) (rm : Reg)
  | rscImm (cond : Cond) (sf : Bool) (rn rd : Reg) (rot : BitVec 4) (imm8 : BitVec 8)
  | rscShi (cond : Cond) (sf : Bool) (rn rd : Reg) (shamt : BitVec 5) (ty : ShiftType) (rm : Reg)
  | rscShr (cond : Cond) (sf : Bool) (rn rd rs : Reg) (ty : ShiftType) (rm : Reg)
  | tstImm (cond : Cond) (sf : Bool) (rn rd : Reg) (rot : BitVec 4) (imm8 : BitVec 8)
  | tstShi (cond : Cond) (sf : Bool) (rn rd : Reg) (shamt : BitVec 5) (ty : ShiftType) (rm : Reg)
  | tstShr (cond : Cond) (sf : Bool) (rn rd rs : Reg) (ty : ShiftType) (rm : Reg)
  | teqImm (cond : Cond) (sf : Bool) (rn rd : Reg) (rot : BitVec 4) (imm8 : BitVec 8)
  | teqShi (cond : Cond) (sf : Bool) (rn rd : Reg) (shamt : BitVec 5) (ty : ShiftType) (rm : Reg)
  | teqShr (cond : Cond) (sf : Bool) (rn rd rs : Reg) (ty : ShiftType) (rm : Reg)
  | cmpImm (cond : Cond) (sf : Bool) (rn rd : Reg) (rot : BitVec 4) (imm8 : BitVec 8)
  | cmpShi (cond : Cond) (sf : Bool) (rn rd : Reg) (shamt : BitVec 5) (ty : ShiftType) (rm : Reg)
  | cmpShr (cond : Cond) (sf : Bool) (rn rd rs : Reg) (ty : ShiftType) (rm : Reg)
  | cmnImm (cond : Cond) (sf : Bool) (rn rd : Reg) (rot : BitVec 4) (imm8 : BitVec 8)
  | cmnShi (cond : Cond) (sf : Bool) (rn rd : Reg) (shamt : BitVec 5) (ty : ShiftType) (rm : Reg)
  | cmnShr (cond : Cond) (sf : Bool) (rn rd rs : Reg) (ty : ShiftType) (rm : Reg)
  | orrImm (cond : Cond) (sf : Bool) (rn rd : Reg) (rot : BitVec 4) (imm8 : BitVec 8)
  | orrShi (cond : Cond) (sf : Bool) (rn rd : Reg) (shamt : BitVec 5) (ty : ShiftType) (rm : Reg)
  | orrShr (cond : Cond) (sf : Bool) (rn rd rs : Reg) (ty : ShiftType) (rm : Reg)
  | movImm (cond : Cond) (sf : Bool) (rn rd : Reg) (rot : BitVec 4) (imm8 : BitVec 8)
  | movShi (cond : Cond) (sf : Bool) (rn rd : Reg) (shamt : BitVec 5) (ty : ShiftType) (rm : Reg)
  | movShr (cond : Cond) (sf : Bool) (rn rd rs : Reg) (ty : ShiftType) (rm : Reg)
  | bicImm (cond : Cond) (sf : Bool) (rn rd : Reg) (rot : BitVec 4) (imm8 : BitVec 8)
  | bicShi (cond : Cond) (sf : Bool) (rn rd : Reg) (shamt : BitVec 5) (ty : ShiftType) (rm : Reg)
  | bicShr (cond : Cond) (sf : Bool) (rn rd rs : Reg) (ty : ShiftType) (rm : Reg)
  | mvnImm (cond : Cond) (sf : Bool) (rn rd : Reg) (rot : BitVec 4) (imm8 : BitVec 8)
  | mvnShi (cond : Cond) (sf : Bool) (rn rd : Reg) (shamt : BitVec 5) (ty : ShiftType) (rm : Reg)
  | mvnShr (cond : Cond) (sf : Bool) (rn rd rs : Reg) (ty : ShiftType) (rm : Reg)
  /-- Bits 31:28 are 1111 (R151). -/
  | reservedCondition (insn : Word)
  /-- Bits 27:26 are 01 (R152). -/
  | unassignedClass01 (insn : Word)
  /-- Bits 27:26 are 10 (R152). -/
  | unassignedClass10 (insn : Word)
  /-- Bits 27:26 are 11 (R152). -/
  | unassignedClass11 (insn : Word)
  /-- Bits 27:25 are 000 and bits 7 and 4 are 1: the register-shift form with bit 7 set (R152, D6). -/
  | unassignedShiftBit7 (insn : Word)
  deriving DecidableEq, Repr

end Sys2Proof
end

