-- ==== Sys2Proof/WellFormed.lean ====
section
/-! DEFINITION. Which terms of `Instr` stand for an instruction word of their own row. The 48 data-processing rows are
well-formed by their types; a faulting row carries a whole word, which must be a word of that row
(spec/opcode_table.json: match, mask and priority). -/

namespace Sys2Proof

/-- The condition field is not the reserved code: the row of priority 0 does not claim the word. -/
def hasCondition (insn : Word) : Bool := insn.extractLsb' 28 4 != 0b1111#4

/-- A word that its row of the opcode table selects. -/
def Instr.wellFormed : Instr → Bool
  | .reservedCondition insn => insn.extractLsb' 28 4 == 0b1111#4
  | .unassignedClass01 insn => hasCondition insn && insn.extractLsb' 26 2 == 0b01#2
  | .unassignedClass10 insn => hasCondition insn && insn.extractLsb' 26 2 == 0b10#2
  | .unassignedClass11 insn => hasCondition insn && insn.extractLsb' 26 2 == 0b11#2
  | .unassignedShiftBit7 insn =>
    hasCondition insn && insn.extractLsb' 25 3 == 0b000#3 && insn.getLsbD 7 && insn.getLsbD 4
  | .andImm .. | .andShi .. | .andShr .. => true
  | .eorImm .. | .eorShi .. | .eorShr .. => true
  | .subImm .. | .subShi .. | .subShr .. => true
  | .rsbImm .. | .rsbShi .. | .rsbShr .. => true
  | .addImm .. | .addShi .. | .addShr .. => true
  | .adcImm .. | .adcShi .. | .adcShr .. => true
  | .sbcImm .. | .sbcShi .. | .sbcShr .. => true
  | .rscImm .. | .rscShi .. | .rscShr .. => true
  | .tstImm .. | .tstShi .. | .tstShr .. => true
  | .teqImm .. | .teqShi .. | .teqShr .. => true
  | .cmpImm .. | .cmpShi .. | .cmpShr .. => true
  | .cmnImm .. | .cmnShi .. | .cmnShr .. => true
  | .orrImm .. | .orrShi .. | .orrShr .. => true
  | .movImm .. | .movShi .. | .movShr .. => true
  | .bicImm .. | .bicShi .. | .bicShr .. => true
  | .mvnImm .. | .mvnShi .. | .mvnShr .. => true

end Sys2Proof
end

