-- ==== Sys2Proof/Decode.lean ====
section
/-! DEFINITION. From words and bytes to instructions and back (30_encoding.md R41 to R46, R53, R54, R59). -/

namespace Sys2Proof

/-- The condition of a condition code; code 15 has none (40_condition_evaluator.md R61, R62). -/
def Cond.ofCode (code : BitVec 4) : Option Cond :=
  match code.toNat with
  | 0 => some .eq | 1 => some .ne | 2 => some .cs | 3 => some .cc | 4 => some .mi
  | 5 => some .pl | 6 => some .vs | 7 => some .vc | 8 => some .hi | 9 => some .ls
  | 10 => some .ge | 11 => some .lt | 12 => some .gt | 13 => some .le | 14 => some .al
  | _ => none

/-- The code of a condition (R61). -/
def Cond.code : Cond → BitVec 4
  | .eq => 0#4 | .ne => 1#4 | .cs => 2#4 | .cc => 3#4 | .mi => 4#4 | .pl => 5#4 | .vs => 6#4 | .vc => 7#4
  | .hi => 8#4 | .ls => 9#4 | .ge => 10#4 | .lt => 11#4 | .gt => 12#4 | .le => 13#4 | .al => 14#4

/-- Field `type` (R43). -/
def ShiftType.ofCode (code : BitVec 2) : ShiftType :=
  match code.toNat with
  | 0 => .lsl | 1 => .lsr | 2 => .asr | _ => .ror

/-- The bits of field `type` (R43). -/
def ShiftType.code : ShiftType → BitVec 2
  | .lsl => 0b00#2 | .lsr => 0b01#2 | .asr => 0b10#2 | .ror => 0b11#2

/-- Field `opcode` (R44). -/
def AluOp.ofCode (code : BitVec 4) : AluOp :=
  match code.toNat with
  | 0 => .and | 1 => .eor | 2 => .sub | 3 => .rsb | 4 => .add | 5 => .adc | 6 => .sbc | 7 => .rsc
  | 8 => .tst | 9 => .teq | 10 => .cmp | 11 => .cmn | 12 => .orr | 13 => .mov | 14 => .bic | _ => .mvn

/-- The bits of field `opcode` (R44). -/
def AluOp.code : AluOp → BitVec 4
  | .and => 0#4 | .eor => 1#4 | .sub => 2#4 | .rsb => 3#4 | .add => 4#4 | .adc => 5#4 | .sbc => 6#4 | .rsc => 7#4
  | .tst => 8#4 | .teq => 9#4 | .cmp => 10#4 | .cmn => 11#4 | .orr => 12#4 | .mov => 13#4 | .bic => 14#4 | .mvn => 15#4

/-- The instruction of an operation in the format `DP_IMM`. -/
def Instr.dpImm (op : AluOp) (cond : Cond) (sf : Bool) (rn rd : Reg) (rot : BitVec 4) (imm8 : BitVec 8) : Instr :=
  match op with
  | .and => .andImm cond sf rn rd rot imm8
  | .eor => .eorImm cond sf rn rd rot imm8
  | .sub => .subImm cond sf rn rd rot imm8
  | .rsb => .rsbImm cond sf rn rd rot imm8
  | .add => .addImm cond sf rn rd rot imm8
  | .adc => .adcImm cond sf rn rd rot imm8
  | .sbc => .sbcImm cond sf rn rd rot imm8
  | .rsc => .rscImm cond sf rn rd rot imm8
  | .tst => .tstImm cond sf rn rd rot imm8
  | .teq => .teqImm cond sf rn rd rot imm8
  | .cmp => .cmpImm cond sf rn rd rot imm8
  | .cmn => .cmnImm cond sf rn rd rot imm8
  | .orr => .orrImm cond sf rn rd rot imm8
  | .mov => .movImm cond sf rn rd rot imm8
  | .bic => .bicImm cond sf rn rd rot imm8
  | .mvn => .mvnImm cond sf rn rd rot imm8

/-- The instruction of an operation in the format `DP_SHI`. -/
def Instr.dpShi (op : AluOp) (cond : Cond) (sf : Bool) (rn rd : Reg) (shamt : BitVec 5) (ty : ShiftType) (rm : Reg) :
    Instr :=
  match op with
  | .and => .andShi cond sf rn rd shamt ty rm
  | .eor => .eorShi cond sf rn rd shamt ty rm
  | .sub => .subShi cond sf rn rd shamt ty rm
  | .rsb => .rsbShi cond sf rn rd shamt ty rm
  | .add => .addShi cond sf rn rd shamt ty rm
  | .adc => .adcShi cond sf rn rd shamt ty rm
  | .sbc => .sbcShi cond sf rn rd shamt ty rm
  | .rsc => .rscShi cond sf rn rd shamt ty rm
  | .tst => .tstShi cond sf rn rd shamt ty rm
  | .teq => .teqShi cond sf rn rd shamt ty rm
  | .cmp => .cmpShi cond sf rn rd shamt ty rm
  | .cmn => .cmnShi cond sf rn rd shamt ty rm
  | .orr => .orrShi cond sf rn rd shamt ty rm
  | .mov => .movShi cond sf rn rd shamt ty rm
  | .bic => .bicShi cond sf rn rd shamt ty rm
  | .mvn => .mvnShi cond sf rn rd shamt ty rm

/-- The instruction of an operation in the format `DP_SHR`. -/
def Instr.dpShr (op : AluOp) (cond : Cond) (sf : Bool) (rn rd rs : Reg) (ty : ShiftType) (rm : Reg) : Instr :=
  match op with
  | .and => .andShr cond sf rn rd rs ty rm
  | .eor => .eorShr cond sf rn rd rs ty rm
  | .sub => .subShr cond sf rn rd rs ty rm
  | .rsb => .rsbShr cond sf rn rd rs ty rm
  | .add => .addShr cond sf rn rd rs ty rm
  | .adc => .adcShr cond sf rn rd rs ty rm
  | .sbc => .sbcShr cond sf rn rd rs ty rm
  | .rsc => .rscShr cond sf rn rd rs ty rm
  | .tst => .tstShr cond sf rn rd rs ty rm
  | .teq => .teqShr cond sf rn rd rs ty rm
  | .cmp => .cmpShr cond sf rn rd rs ty rm
  | .cmn => .cmnShr cond sf rn rd rs ty rm
  | .orr => .orrShr cond sf rn rd rs ty rm
  | .mov => .movShr cond sf rn rd rs ty rm
  | .bic => .bicShr cond sf rn rd rs ty rm
  | .mvn => .mvnShr cond sf rn rd rs ty rm

/-- The data-processing instruction with these fields: the constructor of its operation and format. -/
def Instr.dp (op : AluOp) (cond : Cond) (sf : Bool) (rn rd : Reg) : Operand2 → Instr
  | .imm rot imm8 => .dpImm op cond sf rn rd rot imm8
  | .shi shamt ty rm => .dpShi op cond sf rn rd shamt ty rm
  | .shr rs ty rm => .dpShr op cond sf rn rd rs ty rm

/-- Operand 2 of a word of class 00 (R42, R46), or none: the register-shift form with bit 7 set, where
REG_SHIFT_BIT7_SET = fault (R54, D6). -/
def operand2OfWord (mode : RegShiftBit7) (insn : Word) : Option Operand2 :=
  let ty := ShiftType.ofCode (insn.extractLsb' 5 2)
  let rm : Reg := (insn.extractLsb' 0 4).toFin
  let rs : Reg := (insn.extractLsb' 8 4).toFin
  if insn.getLsbD 25 then some (.imm (insn.extractLsb' 8 4) (insn.extractLsb' 0 8))
  else if !insn.getLsbD 4 then some (.shi (insn.extractLsb' 7 5) ty rm)
  else if !insn.getLsbD 7 then some (.shr rs ty rm)
  else match mode with
    | .fault => none
    | .ignoreBit7 => some (.shr rs ty rm)

/-- The instruction of a word (R46): the reserved condition first, then the class, then the format. -/
def decodeWith (mode : RegShiftBit7) (insn : Word) : Instr :=
  match Cond.ofCode (insn.extractLsb' 28 4) with
  | none => .reservedCondition insn
  | some cond =>
    match (insn.extractLsb' 26 2).toNat with
    | 0 =>
      match operand2OfWord mode insn with
      | some op2 =>
        .dp (AluOp.ofCode (insn.extractLsb' 21 4)) cond (insn.getLsbD 20) (insn.extractLsb' 16 4).toFin
          (insn.extractLsb' 12 4).toFin op2
      | none => .unassignedShiftBit7 insn
    | 1 => .unassignedClass01 insn
    | 2 => .unassignedClass10 insn
    | _ => .unassignedClass11 insn

/-- The decoder of this core: REG_SHIFT_BIT7_SET at its configured value. -/
def decodeWord (insn : Word) : Instr := decodeWith Config.regShiftBit7Set insn

/-- The word whose four bytes stand at rising addresses, little-endian (20_memory.md R33, D13). -/
def wordOfBytes (b0 b1 b2 b3 : Byte) : Word := b3 ++ b2 ++ b1 ++ b0

/-- Byte `k` of a word in a little-endian store (R33, D13). -/
def byteOfWord (w : Word) (k : Nat) : Byte := w.extractLsb' (8 * k) 8

/-- Why the decoder rejects a list of bytes. -/
inductive DecodeReject where
  /-- Fewer than the four bytes of an instruction word (R40). -/
  | truncated
  deriving DecidableEq, Repr

/-- The first instruction of a list of bytes and the bytes after it. Every four bytes are an instruction word of some
row of the opcode table, so the only rejection is a list that is too short (R40, R45). -/
def decode : List Byte → Except DecodeReject (Instr × List Byte)
  | b0 :: b1 :: b2 :: b3 :: rest => .ok (decodeWord (wordOfBytes b0 b1 b2 b3), rest)
  | _ => .error .truncated

/-- The bytes of an instruction whose bits are `w`, as the store holds them: four bytes, the bits from `nbits` up 0. -/
def tableBytes (nbits w : Nat) : List Byte :=
  let word : Word := BitVec.ofNat 32 (w % 2 ^ nbits)
  [byteOfWord word 0, byteOfWord word 1, byteOfWord word 2, byteOfWord word 3]

/-- What the decoder reads from an instruction whose bits are numbered as the opcode table numbers them. -/
def decodeTableWord (nbits w : Nat) : Option Instr :=
  match decode (tableBytes nbits w) with
  | .ok (i, _) => some i
  | .error _ => none

/-! ### The encoder -/

/-- Bits 11:0 (R42, R59). -/
def Operand2.bits : Operand2 → BitVec 12
  | .imm rot imm8 => rot ++ imm8
  | .shi shamt ty rm => shamt ++ ty.code ++ 0b0#1 ++ BitVec.ofFin (w := 4) rm
  | .shr rs ty rm => BitVec.ofFin (w := 4) rs ++ 0b0#1 ++ ty.code ++ 0b1#1 ++ BitVec.ofFin (w := 4) rm

/-- Bit 25, `I` (R41). -/
def Operand2.isImm : Operand2 → Bool
  | .imm .. => true
  | .shi .. | .shr .. => false

/-- The word of a data-processing instruction: cond, 00, I, opcode, S, Rn, Rd, operand 2 (R41, R59). -/
def encodeDp (op : AluOp) (cond : Cond) (sf : Bool) (rn rd : Reg) (op2 : Operand2) : Word :=
  cond.code ++ 0b00#2 ++ BitVec.ofBool op2.isImm ++ op.code ++ BitVec.ofBool sf ++ BitVec.ofFin (w := 4) rn ++
    BitVec.ofFin (w := 4) rd ++ op2.bits

/-- The word of an instruction. -/
def encode : Instr → Word
  | .andImm cond sf rn rd rot imm8 => encodeDp .and cond sf rn rd (.imm rot imm8)
  | .andShi cond sf rn rd shamt ty rm => encodeDp .and cond sf rn rd (.shi shamt ty rm)
  | .andShr cond sf rn rd rs ty rm => encodeDp .and cond sf rn rd (.shr rs ty rm)
  | .eorImm cond sf rn rd rot imm8 => encodeDp .eor cond sf rn rd (.imm rot imm8)
  | .eorShi cond sf rn rd shamt ty rm => encodeDp .eor cond sf rn rd (.shi shamt ty rm)
  | .eorShr cond sf rn rd rs ty rm => encodeDp .eor cond sf rn rd (.shr rs ty rm)
  | .subImm cond sf rn rd rot imm8 => encodeDp .sub cond sf rn rd (.imm rot imm8)
  | .subShi cond sf rn rd shamt ty rm => encodeDp .sub cond sf rn rd (.shi shamt ty rm)
  | .subShr cond sf rn rd rs ty rm => encodeDp .sub cond sf rn rd (.shr rs ty rm)
  | .rsbImm cond sf rn rd rot imm8 => encodeDp .rsb cond sf rn rd (.imm rot imm8)
  | .rsbShi cond sf rn rd shamt ty rm => encodeDp .rsb cond sf rn rd (.shi shamt ty rm)
  | .rsbShr cond sf rn rd rs ty rm => encodeDp .rsb cond sf rn rd (.shr rs ty rm)
  | .addImm cond sf rn rd rot imm8 => encodeDp .add cond sf rn rd (.imm rot imm8)
  | .addShi cond sf rn rd shamt ty rm => encodeDp .add cond sf rn rd (.shi shamt ty rm)
  | .addShr cond sf rn rd rs ty rm => encodeDp .add cond sf rn rd (.shr rs ty rm)
  | .adcImm cond sf rn rd rot imm8 => encodeDp .adc cond sf rn rd (.imm rot imm8)
  | .adcShi cond sf rn rd shamt ty rm => encodeDp .adc cond sf rn rd (.shi shamt ty rm)
  | .adcShr cond sf rn rd rs ty rm => encodeDp .adc cond sf rn rd (.shr rs ty rm)
  | .sbcImm cond sf rn rd rot imm8 => encodeDp .sbc cond sf rn rd (.imm rot imm8)
  | .sbcShi cond sf rn rd shamt ty rm => encodeDp .sbc cond sf rn rd (.shi shamt ty rm)
  | .sbcShr cond sf rn rd rs ty rm => encodeDp .sbc cond sf rn rd (.shr rs ty rm)
  | .rscImm cond sf rn rd rot imm8 => encodeDp .rsc cond sf rn rd (.imm rot imm8)
  | .rscShi cond sf rn rd shamt ty rm => encodeDp .rsc cond sf rn rd (.shi shamt ty rm)
  | .rscShr cond sf rn rd rs ty rm => encodeDp .rsc cond sf rn rd (.shr rs ty rm)
  | .tstImm cond sf rn rd rot imm8 => encodeDp .tst cond sf rn rd (.imm rot imm8)
  | .tstShi cond sf rn rd shamt ty rm => encodeDp .tst cond sf rn rd (.shi shamt ty rm)
  | .tstShr cond sf rn rd rs ty rm => encodeDp .tst cond sf rn rd (.shr rs ty rm)
  | .teqImm cond sf rn rd rot imm8 => encodeDp .teq cond sf rn rd (.imm rot imm8)
  | .teqShi cond sf rn rd shamt ty rm => encodeDp .teq cond sf rn rd (.shi shamt ty rm)
  | .teqShr cond sf rn rd rs ty rm => encodeDp .teq cond sf rn rd (.shr rs ty rm)
  | .cmpImm cond sf rn rd rot imm8 => encodeDp .cmp cond sf rn rd (.imm rot imm8)
  | .cmpShi cond sf rn rd shamt ty rm => encodeDp .cmp cond sf rn rd (.shi shamt ty rm)
  | .cmpShr cond sf rn rd rs ty rm => encodeDp .cmp cond sf rn rd (.shr rs ty rm)
  | .cmnImm cond sf rn rd rot imm8 => encodeDp .cmn cond sf rn rd (.imm rot imm8)
  | .cmnShi cond sf rn rd shamt ty rm => encodeDp .cmn cond sf rn rd (.shi shamt ty rm)
  | .cmnShr cond sf rn rd rs ty rm => encodeDp .cmn cond sf rn rd (.shr rs ty rm)
  | .orrImm cond sf rn rd rot imm8 => encodeDp .orr cond sf rn rd (.imm rot imm8)
  | .orrShi cond sf rn rd shamt ty rm => encodeDp .orr cond sf rn rd (.shi shamt ty rm)
  | .orrShr cond sf rn rd rs ty rm => encodeDp .orr cond sf rn rd (.shr rs ty rm)
  | .movImm cond sf rn rd rot imm8 => encodeDp .mov cond sf rn rd (.imm rot imm8)
  | .movShi cond sf rn rd shamt ty rm => encodeDp .mov cond sf rn rd (.shi shamt ty rm)
  | .movShr cond sf rn rd rs ty rm => encodeDp .mov cond sf rn rd (.shr rs ty rm)
  | .bicImm cond sf rn rd rot imm8 => encodeDp .bic cond sf rn rd (.imm rot imm8)
  | .bicShi cond sf rn rd shamt ty rm => encodeDp .bic cond sf rn rd (.shi shamt ty rm)
  | .bicShr cond sf rn rd rs ty rm => encodeDp .bic cond sf rn rd (.shr rs ty rm)
  | .mvnImm cond sf rn rd rot imm8 => encodeDp .mvn cond sf rn rd (.imm rot imm8)
  | .mvnShi cond sf rn rd shamt ty rm => encodeDp .mvn cond sf rn rd (.shi shamt ty rm)
  | .mvnShr cond sf rn rd rs ty rm => encodeDp .mvn cond sf rn rd (.shr rs ty rm)
  | .reservedCondition insn | .unassignedClass01 insn | .unassignedClass10 insn | .unassignedClass11 insn
  | .unassignedShiftBit7 insn => insn

/-- The bytes of an instruction in a little-endian store (R33, D13). -/
def encodeBytes (i : Instr) : List Byte :=
  [byteOfWord (encode i) 0, byteOfWord (encode i) 1, byteOfWord (encode i) 2, byteOfWord (encode i) 3]

end Sys2Proof
end

