-- ==== Sys2Proof/Machine/State.lean ====
section
/-! DEFINITION. The state of the machine (spec/10_state.md), its value after reset, and the reasons a step can stop. -/

namespace Sys2Proof.Machine

/-- The inert mode-shadow registers (10_state.md R11). Nothing in the core reads or writes them. DESIGN CHOICE: R11's
counts bank by bank (FIQ indices 8 to 14, the other banks 13 and 14) make 15 registers and its own total says 22; the
model takes the counts bank by bank, whose indices R11 names. Log 3, unsafe. -/
structure Banks where
  fiq : Vector Word 7
  svc : Vector Word 2
  abt : Vector Word 2
  irq : Vector Word 2
  und : Vector Word 2
  deriving DecidableEq, Repr

/-- The inert saved PSRs, one for each of the five banked modes (R17). -/
structure SavedPsrs where
  fiq : Word
  svc : Word
  abt : Word
  irq : Word
  und : Word
  deriving DecidableEq, Repr

/-- The two fatal decode faults (60_exceptions.md R150). -/
inductive DecodeFault where
  | reservedCondition
  | unassignedIndex
  deriving DecidableEq, Repr

/-- The engine status (10_state.md R28): running, or halted with the cause, the instruction word and the fetch address
of the faulting step (60_exceptions.md R151 to R154). -/
inductive EngineStatus where
  | running
  | halted (cause : DecodeFault) (insn addr : Word)
  deriving DecidableEq, Repr

/-- Everything the spec gives the machine. -/
structure State where
  /-- The sixteen general registers; register 15 is the program counter (R10, R12). -/
  x : Vector Word 16
  /-- The current program status register, the raw word (R13, R14). -/
  cpsr : Word
  /-- The mode-shadow registers (R11). -/
  banks : Banks
  /-- The saved PSRs (R17). -/
  spsr : SavedPsrs
  /-- Running, or halted with the latched fault (R28). -/
  status : EngineStatus
  /-- The byte-addressed store behind the word-read primitive (20_memory.md R30, R33), in the canonical form
  `Memory.wf`. -/
  mem : List Host.Cell
  deriving DecidableEq, Repr

/-- Why a step stops with a fault: never. The core's two faults have an effect the spec describes (the status becomes
`halted`, 60_exceptions.md R154), so they are next states, and nothing else in the core can fail (R150). Log 10. -/
inductive Fault where
  deriving DecidableEq, Repr

/-- Why a step is refused. -/
inductive Refusal where
  /-- Raised by `exec` alone, for an instruction that has no meaning yet. Safe. No arm raises it in this model. -/
  | notModelled (mnemonic : String)
  deriving DecidableEq, Repr

/-- What a step or a meaning answers. -/
abbrev Result := Host.Outcome State Fault Refusal

/-- The shadow registers after reset: 0 (R27, "a model that keeps them sets them to 0"). DESIGN CHOICE, log 3. -/
def Banks.reset : Banks :=
  { fiq := Vector.replicate 7 0#32, svc := Vector.replicate 2 0#32, abt := Vector.replicate 2 0#32,
    irq := Vector.replicate 2 0#32, und := Vector.replicate 2 0#32 }

/-- The saved PSRs after reset: 0 (R27). DESIGN CHOICE, log 3. -/
def SavedPsrs.reset : SavedPsrs := { fiq := 0#32, svc := 0#32, abt := 0#32, irq := 0#32, und := 0#32 }

/-- The machine right after reset (10_state.md R25 to R28; 70_reset_and_hazards.md R170, R171). Memory lists nothing:
it belongs to the memory subsystem. Log 2, 16. -/
def State.reset : State :=
  { x := Vector.replicate 16 0#32, cpsr := Config.resetCpsr, banks := Banks.reset, spsr := SavedPsrs.reset,
    status := .running, mem := [] }

end Sys2Proof.Machine
end

