-- ==== Sys2Proof/Machine/Psr.lean ====
section
/-! DEFINITION. The status register model (10_state.md R13 to R15): one raw word, field views computed on access. -/

namespace Sys2Proof.Machine

/-- The one-bit fields of the CPSR (R13). -/
inductive PsrBit where
  | N | Z | C | V | I | F | T
  deriving DecidableEq, Repr

/-- The bit a field occupies (R13). -/
def PsrBit.pos : PsrBit → Nat
  | .N => 31 | .Z => 30 | .C => 29 | .V => 28 | .I => 7 | .F => 6 | .T => 5

namespace Psr

/-- Read a one-bit field (R14). -/
def readBit (p : Word) (b : PsrBit) : Bool := p.getLsbD b.pos

/-- Write a one-bit field and nothing else (R15). -/
def writeBit (p : Word) (b : PsrBit) (v : Bool) : Word :=
  if v then p ||| (1#32 <<< b.pos) else p &&& ~~~(1#32 <<< b.pos)

/-- Read the mode field M, bits 4:0 (R13, R14). -/
def readMode (p : Word) : BitVec 5 := p.extractLsb' 0 5

/-- Write the mode field M and nothing else (R15 (b)). Any value may be written (R19). -/
def writeMode (p : Word) (m : BitVec 5) : Word := p.extractLsb' 5 27 ++ m

/-- Bits 27:8, which have no name (R22). -/
def unnamed (p : Word) : BitVec 20 := p.extractLsb' 8 20

/-- The flag write of a flag-setting instruction: `cpsr <- (n : z : c : v) : cpsr[27:0]` (R15 (a)). -/
def writeNzcv (p : Word) (n z c v : Bool) : Word :=
  BitVec.ofBool n ++ BitVec.ofBool z ++ BitVec.ofBool c ++ BitVec.ofBool v ++ p.extractLsb' 0 28

end Psr

/-- A one-bit field of the CPSR of a state. -/
def State.psr (s : State) (b : PsrBit) : Bool := Psr.readBit s.cpsr b

end Sys2Proof.Machine
end

