-- ==== Sys2Proof/Machine/Condition.lean ====
section
/-! DEFINITION. The condition evaluator (spec/40_condition_evaluator.md). -/

namespace Sys2Proof.Machine

/-- Whether a condition passes on the four flags (R61). -/
def condPasses (cond : Cond) (n z c v : Bool) : Bool :=
  match cond with
  | .eq => z
  | .ne => !z
  | .cs => c
  | .cc => !c
  | .mi => n
  | .pl => !n
  | .vs => v
  | .vc => !v
  | .hi => c && !z
  | .ls => !c || z
  | .ge => n == v
  | .lt => n != v
  | .gt => !z && n == v
  | .le => z || n != v
  | .al => true

/-- `ConditionPassed(cond, N, Z, C, V)` (R60): none is the reserved-condition fault (R62). -/
def conditionPassed (code : BitVec 4) (n z c v : Bool) : Option Bool :=
  (Cond.ofCode code).map fun cond => condPasses cond n z c v

/-- A condition on the flags as a state holds them (R60, R63). -/
def State.passes (s : State) (cond : Cond) : Bool :=
  condPasses cond (s.psr .N) (s.psr .Z) (s.psr .C) (s.psr .V)

/-- The evaluator on a word's condition field and the flags as a state holds them (R60, R63). -/
def State.evaluates (s : State) (insn : Word) : Option Bool :=
  conditionPassed (insn.extractLsb' 28 4) (s.psr .N) (s.psr .Z) (s.psr .C) (s.psr .V)

end Sys2Proof.Machine
end

