-- ==== Sys2Proof/Machine/Ops.lean ====
section
/-! DEFINITION. The named operations over registers and memory, conditional execution, and taking a fatal decode
fault. -/

namespace Sys2Proof.Machine

/-! ### Registers (10_state.md R10, R12) -/

/-- Read general register `i`: the stored value. -/
def State.readReg (s : State) (i : Reg) : Word := s.x[i]

/-- Write general register `i`: all 32 bits as given, register 15 like any other (R10, R12 (e)). -/
def State.writeReg (s : State) (i : Reg) (v : Word) : State := { s with x := s.x.set i v }

/-- Write the destination register of an operation that has one. -/
def State.writeDest (s : State) (dest : Option Reg) (v : Word) : State :=
  match dest with
  | some i => s.writeReg i v
  | none => s

/-- Read a register as an instruction operand (30_encoding.md R47): register 15 with R15_READ_OFFSET added, which is 0
(R12 (d), D9). UNVERIFIED: the spec's decision D9. Log 8, unsafe. -/
def State.readOperand (s : State) (i : Reg) : Word :=
  if i = 15 then s.readReg i + Config.r15ReadOffset else s.readReg i

/-! ### Memory (20_memory.md) -/

namespace Memory

/-- One byte: the listed one, or what an unlisted address reads as. -/
def read : List Host.Cell → Nat → Byte
  | [], _ => Config.unlistedByte
  | (k, b) :: rest, a => if k = a then b else read rest a

/-- Store one byte and keep the canonical form. -/
def write : List Host.Cell → Nat → Byte → List Host.Cell
  | [], a, v => if v = Config.unlistedByte then [] else [(a, v)]
  | (k, b) :: rest, a, v =>
    if a < k then (if v = Config.unlistedByte then (k, b) :: rest else (a, v) :: (k, b) :: rest)
    else if a = k then (if v = Config.unlistedByte then rest else (a, v) :: rest)
    else (k, b) :: write rest a v

/-- The canonical form from address `lo` up: addresses strictly rising and inside the 32-bit space, no byte listed that
an unlisted address reads as anyway. -/
def wfFrom : Nat → List Host.Cell → Bool
  | _, [] => true
  | lo, (k, b) :: rest =>
    decide (lo ≤ k) && decide (k < 2 ^ 32) && decide (b ≠ Config.unlistedByte) && wfFrom (k + 1) rest

/-- The canonical form of a memory. -/
def wf (m : List Host.Cell) : Bool := wfFrom 0 m

/-- Store the four bytes of a word at an address, little-endian (R33, D13). -/
def writeWord (m : List Host.Cell) (addr : Word) (w : Word) : List Host.Cell :=
  write (write (write (write m addr.toNat (byteOfWord w 0)) (addr + 1#32).toNat (byteOfWord w 1))
    (addr + 2#32).toNat (byteOfWord w 2)) (addr + 3#32).toNat (byteOfWord w 3)

/-- `FetchWord(addr)`, the word-read primitive (R31): never fails. At a multiple of 4 it is the little-endian word of
the store (R33, D13); elsewhere the memory subsystem's answer, a free value (R34, U15, log 13). -/
def fetchWord (m : List Host.Cell) (addr : Word) : Word :=
  if addr.extractLsb' 0 2 = 0#2 then
    wordOfBytes (read m addr.toNat) (read m (addr + 1#32).toNat) (read m (addr + 2#32).toNat) (read m (addr + 3#32).toNat)
  else Config.halfwordWord m addr

end Memory

/-! ### The fetch (45_fetch_execute.md R141, R142) -/

/-- `FetchAddress(pc, T)` (R141). -/
def fetchAddress (pc : Word) (t : Bool) : Word :=
  if t then pc &&& 0xFFFFFFFE#32 else pc &&& 0xFFFFFFFC#32

/-- The fetch address of a state: from the stored register 15 and the T bit. -/
def State.fetchAddr (s : State) : Word := fetchAddress (s.readReg 15) (s.psr .T)

/-- The word that a step from this state fetches (R142). -/
def State.fetchedWord (s : State) : Word := Memory.fetchWord s.mem s.fetchAddr

/-! ### Taking a fault, and conditional execution -/

/-- `raise DecodeFault(cause, insn, addr)` (60_exceptions.md R154): the status becomes halted with the cause, the word
and the fetch address; no register, no bit of the CPSR, no saved PSR and no memory changes, and control goes to no
handler. There is no return from it (R157): only reset clears the latch. -/
def State.raiseDecodeFault (s : State) (cause : DecodeFault) (insn : Word) : State :=
  { s with status := .halted cause insn s.fetchAddr }

/-- Run an effect if the condition passes; otherwise nothing changes (45_fetch_execute.md R144). -/
def conditionally (cond : Cond) (effect : State → State) (s : State) : State :=
  if s.passes cond then effect s else s

end Sys2Proof.Machine
end

