-- ==== Sys2Proof/Machine/Operands.lean ====
section
/-! DEFINITION. The barrel shifter (spec/41_barrel_shifter.md): operand 2 and the shifter carry-out. -/

namespace Sys2Proof.Machine

/-- What the shifter answers: operand 2 and the transient carry-out (R70; 10_state.md R23). -/
structure Shifted where
  value : Word
  carry : Bool
  deriving DecidableEq, Repr

/-- LSL by `n`, 1 to 31; the carry-out is the last bit shifted out, `v[32 - n]` (R72, R78). -/
def shiftLsl (v : Word) (n : Nat) : Shifted := ⟨v <<< n, v.getLsbD (32 - n)⟩

/-- LSR by `n`, 1 to 31; the carry-out is `v[n - 1]` (R73, R79). -/
def shiftLsr (v : Word) (n : Nat) : Shifted := ⟨v >>> n, v.getLsbD (n - 1)⟩

/-- ASR by `n`, 1 to 31; the carry-out is `v[n - 1]` (R74, R80). -/
def shiftAsr (v : Word) (n : Nat) : Shifted := ⟨v.sshiftRight n, v.getLsbD (n - 1)⟩

/-- ROR by `n`, 1 to 31; the carry-out is `v[n - 1]` (R75, R81). -/
def shiftRor (v : Word) (n : Nat) : Shifted := ⟨v.rotateRight n, v.getLsbD (n - 1)⟩

/-- A shift by 1 to 31 of either register form. -/
def shiftBy (ty : ShiftType) (v : Word) (n : Nat) : Shifted :=
  match ty with
  | .lsl => shiftLsl v n
  | .lsr => shiftLsr v n
  | .asr => shiftAsr v n
  | .ror => shiftRor v n

/-- ROR with immediate amount 0 (R75, D5): rotate by 32, or rotate right through the carry. -/
def rorImmZero (mode : RorImm0Mode) (v : Word) (c : Bool) : Shifted :=
  match mode with
  | .ror32 => ⟨v, v.msb⟩
  | .rrx => ⟨BitVec.ofBool c ++ v.extractLsb' 1 31, v.getLsbD 0⟩

/-- Immediate amount 0 (R72 to R75): no shift for LSL, 32 for the others. -/
def shiftImmZero (ty : ShiftType) (v : Word) (c : Bool) : Shifted :=
  match ty with
  | .lsl => ⟨v, c⟩
  | .lsr => ⟨0#32, v.msb⟩
  | .asr => ⟨if v.msb then 0xFFFFFFFF#32 else 0#32, v.msb⟩
  | .ror => rorImmZero Config.rorImm0Mode v c

/-- A register shifted by an immediate amount, `DP_SHI` (R72 to R75). -/
def shiftImm (ty : ShiftType) (v : Word) (shamt : BitVec 5) (c : Bool) : Shifted :=
  if shamt = 0#5 then shiftImmZero ty v c else shiftBy ty v shamt.toNat

/-- The amount of the register form: the low byte, masked (30_encoding.md R49; R76). The test for 0 is on the masked
amount (D4, log 4). -/
def regShiftAmount (rs : Word) : Nat := (rs.extractLsb' 0 8 &&& Config.regShiftAmountMask).toNat

/-- A register shifted by a register amount, `DP_SHR` (R76 to R81): amount 0 is no shift for every type. -/
def shiftReg (ty : ShiftType) (v rs : Word) (c : Bool) : Shifted :=
  if regShiftAmount rs = 0 then ⟨v, c⟩ else shiftBy ty v (regShiftAmount rs)

/-- The 8-bit immediate rotated right by twice the rotate field (30_encoding.md R50). -/
def rotatedValue (rot : BitVec 4) (imm8 : BitVec 8) : Word := (imm8.zeroExtend 32).rotateRight (2 * rot.toNat)

/-- `RotatedImmediate(imm8, rot, C)`, `DP_IMM` (R82): the carry test is on the field `rot`. -/
def rotatedImmediate (rot : BitVec 4) (imm8 : BitVec 8) (c : Bool) : Shifted :=
  ⟨rotatedValue rot imm8, if rot = 0#4 then c else (rotatedValue rot imm8).msb⟩

/-- `ShifterOperand(insn, x, C)` (R70). -/
def State.shifterOperand (s : State) : Operand2 → Shifted
  | .imm rot imm8 => rotatedImmediate rot imm8 (s.psr .C)
  | .shi shamt ty rm => shiftImm ty (s.readOperand rm) shamt (s.psr .C)
  | .shr rs ty rm => shiftReg ty (s.readOperand rm) (s.readOperand rs) (s.psr .C)

end Sys2Proof.Machine
end

