-- ==== Sys2Proof/Machine/Flags.lean ====
section
/-! DEFINITION. The adder and the flag writes of the two groups (42_alu_logical.md R90; 43_alu_arithmetic.md R110,
R111), and the shared effect of each group. -/

namespace Sys2Proof.Machine

/-- What the adder answers (R110). -/
structure Sum where
  result : Word
  carry : Bool
  overflow : Bool
  deriving DecidableEq, Repr

/-- `AddWithCarry(a, b, cin)` (R110): the exact sum, then its low 32 bits, bit 32, and signed overflow. -/
def addWithCarry (a b : Word) (cin : Bool) : Sum :=
  let wide : Nat := a.toNat + b.toNat + cin.toNat
  let result : Word := BitVec.ofNat 32 wide
  { result := result, carry := decide (2 ^ 32 ≤ wide), overflow := a.msb == b.msb && result.msb != a.msb }

/-- Write all four flags: N and Z from the result, C and V as given; bits 27:0 kept (R111; 10_state.md R15). -/
def State.setFlags (s : State) (result : Word) (c v : Bool) : State :=
  { s with cpsr := Psr.writeNzcv s.cpsr result.msb (result == 0#32) c v }

/-- The execution of a logical-group instruction that has passed its condition (R90): `f` of operand 1 and operand 2,
written to the destination if there is one; with S = 1, N and Z from the result, C from the shifter, V kept. All
register reads come before the write. -/
def logicalEffect (f : Word → Word → Word) (sf : Bool) (rn : Reg) (dest : Option Reg) (op2 : Operand2) (s : State) :
    State :=
  let shifted := s.shifterOperand op2
  let result := f (s.readOperand rn) shifted.value
  let t := s.writeDest dest result
  if sf then t.setFlags result shifted.carry (s.psr .V) else t

/-- The execution of an arithmetic-group instruction that has passed its condition (R111): the adder call `g` of operand
1, operand 2 and the carry flag, written to the destination if there is one; with S = 1 all four flags from the adder.
The shifter's carry-out is dropped. -/
def arithmeticEffect (g : Word → Word → Bool → Sum) (sf : Bool) (rn : Reg) (dest : Option Reg) (op2 : Operand2)
    (s : State) : State :=
  let sum := g (s.readOperand rn) (s.shifterOperand op2).value (s.psr .C)
  let t := s.writeDest dest sum.result
  if sf then t.setFlags sum.result sum.carry sum.overflow else t

end Sys2Proof.Machine
end

