-- ==== Sys2Proof/Machine/Arithmetic.lean ====
section
/-! DEFINITION. The arithmetic group: ADD, ADC, SUB, SBC, RSB, RSC, CMP, CMN (spec/43_alu_arithmetic.md R110 to R120).
A subtraction `p - q - (1 - cin)` is `AddWithCarry(p, ~q, cin)`, so C after it is not-borrow (R120). -/

namespace Sys2Proof.Machine

/-- ADD (R112). -/
def addEffect (sf : Bool) (rn rd : Reg) (op2 : Operand2) (s : State) : State :=
  arithmeticEffect (fun op1 op2 _ => addWithCarry op1 op2 false) sf rn (some rd) op2 s

/-- ADD, format DP_IMM (R112). -/
def execAddImm (cond : Cond) (sf : Bool) (rn rd : Reg) (rot : BitVec 4) (imm8 : BitVec 8) (s : State) : Result :=
  .next (conditionally cond (addEffect sf rn rd (.imm rot imm8)) s)

/-- ADD, format DP_SHI (R112). -/
def execAddShi (cond : Cond) (sf : Bool) (rn rd : Reg) (shamt : BitVec 5) (ty : ShiftType) (rm : Reg) (s : State) : Result :=
  .next (conditionally cond (addEffect sf rn rd (.shi shamt ty rm)) s)

/-- ADD, format DP_SHR (R112). -/
def execAddShr (cond : Cond) (sf : Bool) (rn rd rs : Reg) (ty : ShiftType) (rm : Reg) (s : State) : Result :=
  .next (conditionally cond (addEffect sf rn rd (.shr rs ty rm)) s)

/-- ADC (R113). -/
def adcEffect (sf : Bool) (rn rd : Reg) (op2 : Operand2) (s : State) : State :=
  arithmeticEffect (fun op1 op2 cin => addWithCarry op1 op2 cin) sf rn (some rd) op2 s

/-- ADC, format DP_IMM (R113). -/
def execAdcImm (cond : Cond) (sf : Bool) (rn rd : Reg) (rot : BitVec 4) (imm8 : BitVec 8) (s : State) : Result :=
  .next (conditionally cond (adcEffect sf rn rd (.imm rot imm8)) s)

/-- ADC, format DP_SHI (R113). -/
def execAdcShi (cond : Cond) (sf : Bool) (rn rd : Reg) (shamt : BitVec 5) (ty : ShiftType) (rm : Reg) (s : State) : Result :=
  .next (conditionally cond (adcEffect sf rn rd (.shi shamt ty rm)) s)

/-- ADC, format DP_SHR (R113). -/
def execAdcShr (cond : Cond) (sf : Bool) (rn rd rs : Reg) (ty : ShiftType) (rm : Reg) (s : State) : Result :=
  .next (conditionally cond (adcEffect sf rn rd (.shr rs ty rm)) s)

/-- SUB (R114). C is not-borrow (R120). Log 23. -/
def subEffect (sf : Bool) (rn rd : Reg) (op2 : Operand2) (s : State) : State :=
  arithmeticEffect (fun op1 op2 _ => addWithCarry op1 (~~~op2) true) sf rn (some rd) op2 s

/-- SUB, format DP_IMM (R114). -/
def execSubImm (cond : Cond) (sf : Bool) (rn rd : Reg) (rot : BitVec 4) (imm8 : BitVec 8) (s : State) : Result :=
  .next (conditionally cond (subEffect sf rn rd (.imm rot imm8)) s)

/-- SUB, format DP_SHI (R114). -/
def execSubShi (cond : Cond) (sf : Bool) (rn rd : Reg) (shamt : BitVec 5) (ty : ShiftType) (rm : Reg) (s : State) : Result :=
  .next (conditionally cond (subEffect sf rn rd (.shi shamt ty rm)) s)

/-- SUB, format DP_SHR (R114). -/
def execSubShr (cond : Cond) (sf : Bool) (rn rd rs : Reg) (ty : ShiftType) (rm : Reg) (s : State) : Result :=
  .next (conditionally cond (subEffect sf rn rd (.shr rs ty rm)) s)

/-- SBC (R115). -/
def sbcEffect (sf : Bool) (rn rd : Reg) (op2 : Operand2) (s : State) : State :=
  arithmeticEffect (fun op1 op2 cin => addWithCarry op1 (~~~op2) cin) sf rn (some rd) op2 s

/-- SBC, format DP_IMM (R115). -/
def execSbcImm (cond : Cond) (sf : Bool) (rn rd : Reg) (rot : BitVec 4) (imm8 : BitVec 8) (s : State) : Result :=
  .next (conditionally cond (sbcEffect sf rn rd (.imm rot imm8)) s)

/-- SBC, format DP_SHI (R115). -/
def execSbcShi (cond : Cond) (sf : Bool) (rn rd : Reg) (shamt : BitVec 5) (ty : ShiftType) (rm : Reg) (s : State) : Result :=
  .next (conditionally cond (sbcEffect sf rn rd (.shi shamt ty rm)) s)

/-- SBC, format DP_SHR (R115). -/
def execSbcShr (cond : Cond) (sf : Bool) (rn rd rs : Reg) (ty : ShiftType) (rm : Reg) (s : State) : Result :=
  .next (conditionally cond (sbcEffect sf rn rd (.shr rs ty rm)) s)

/-- RSB (R116). -/
def rsbEffect (sf : Bool) (rn rd : Reg) (op2 : Operand2) (s : State) : State :=
  arithmeticEffect (fun op1 op2 _ => addWithCarry op2 (~~~op1) true) sf rn (some rd) op2 s

/-- RSB, format DP_IMM (R116). -/
def execRsbImm (cond : Cond) (sf : Bool) (rn rd : Reg) (rot : BitVec 4) (imm8 : BitVec 8) (s : State) : Result :=
  .next (conditionally cond (rsbEffect sf rn rd (.imm rot imm8)) s)

/-- RSB, format DP_SHI (R116). -/
def execRsbShi (cond : Cond) (sf : Bool) (rn rd : Reg) (shamt : BitVec 5) (ty : ShiftType) (rm : Reg) (s : State) : Result :=
  .next (conditionally cond (rsbEffect sf rn rd (.shi shamt ty rm)) s)

/-- RSB, format DP_SHR (R116). -/
def execRsbShr (cond : Cond) (sf : Bool) (rn rd rs : Reg) (ty : ShiftType) (rm : Reg) (s : State) : Result :=
  .next (conditionally cond (rsbEffect sf rn rd (.shr rs ty rm)) s)

/-- RSC (R117). -/
def rscEffect (sf : Bool) (rn rd : Reg) (op2 : Operand2) (s : State) : State :=
  arithmeticEffect (fun op1 op2 cin => addWithCarry op2 (~~~op1) cin) sf rn (some rd) op2 s

/-- RSC, format DP_IMM (R117). -/
def execRscImm (cond : Cond) (sf : Bool) (rn rd : Reg) (rot : BitVec 4) (imm8 : BitVec 8) (s : State) : Result :=
  .next (conditionally cond (rscEffect sf rn rd (.imm rot imm8)) s)

/-- RSC, format DP_SHI (R117). -/
def execRscShi (cond : Cond) (sf : Bool) (rn rd : Reg) (shamt : BitVec 5) (ty : ShiftType) (rm : Reg) (s : State) : Result :=
  .next (conditionally cond (rscEffect sf rn rd (.shi shamt ty rm)) s)

/-- RSC, format DP_SHR (R117). -/
def execRscShr (cond : Cond) (sf : Bool) (rn rd rs : Reg) (ty : ShiftType) (rm : Reg) (s : State) : Result :=
  .next (conditionally cond (rscEffect sf rn rd (.shr rs ty rm)) s)

/-- CMP: no register write (R118). -/
def cmpEffect (sf : Bool) (rn _rd : Reg) (op2 : Operand2) (s : State) : State :=
  arithmeticEffect (fun op1 op2 _ => addWithCarry op1 (~~~op2) true) sf rn none op2 s

/-- CMP, format DP_IMM (R118). -/
def execCmpImm (cond : Cond) (sf : Bool) (rn rd : Reg) (rot : BitVec 4) (imm8 : BitVec 8) (s : State) : Result :=
  .next (conditionally cond (cmpEffect sf rn rd (.imm rot imm8)) s)

/-- CMP, format DP_SHI (R118). -/
def execCmpShi (cond : Cond) (sf : Bool) (rn rd : Reg) (shamt : BitVec 5) (ty : ShiftType) (rm : Reg) (s : State) : Result :=
  .next (conditionally cond (cmpEffect sf rn rd (.shi shamt ty rm)) s)

/-- CMP, format DP_SHR (R118). -/
def execCmpShr (cond : Cond) (sf : Bool) (rn rd rs : Reg) (ty : ShiftType) (rm : Reg) (s : State) : Result :=
  .next (conditionally cond (cmpEffect sf rn rd (.shr rs ty rm)) s)

/-- CMN: no register write (R119). -/
def cmnEffect (sf : Bool) (rn _rd : Reg) (op2 : Operand2) (s : State) : State :=
  arithmeticEffect (fun op1 op2 _ => addWithCarry op1 op2 false) sf rn none op2 s

/-- CMN, format DP_IMM (R119). -/
def execCmnImm (cond : Cond) (sf : Bool) (rn rd : Reg) (rot : BitVec 4) (imm8 : BitVec 8) (s : State) : Result :=
  .next (conditionally cond (cmnEffect sf rn rd (.imm rot imm8)) s)

/-- CMN, format DP_SHI (R119). -/
def execCmnShi (cond : Cond) (sf : Bool) (rn rd : Reg) (shamt : BitVec 5) (ty : ShiftType) (rm : Reg) (s : State) : Result :=
  .next (conditionally cond (cmnEffect sf rn rd (.shi shamt ty rm)) s)

/-- CMN, format DP_SHR (R119). -/
def execCmnShr (cond : Cond) (sf : Bool) (rn rd rs : Reg) (ty : ShiftType) (rm : Reg) (s : State) : Result :=
  .next (conditionally cond (cmnEffect sf rn rd (.shr rs ty rm)) s)

end Sys2Proof.Machine
end

