-- ==== Sys2Proof/Machine/DecodeFaults.lean ====
section
/-! DEFINITION. The five faulting rows of the opcode table (spec/60_exceptions.md R151, R152, R155). -/

namespace Sys2Proof.Machine

/-- A word with condition code 15 (R151): the fault, whatever the flags. -/
def execReservedCondition (insn : Word) (s : State) : Result :=
  .next (s.raiseDecodeFault .reservedCondition insn)

/-- A word whose dispatch index is unassigned (R152), with the checks in the order of R155: the reserved condition, a
condition that fails (the word is skipped), then the fault. DESIGN CHOICE for a term that is not well-formed: log 21. -/
def unassignedEffect (insn : Word) (s : State) : State :=
  match s.evaluates insn with
  | none => s.raiseDecodeFault .reservedCondition insn
  | some false => s
  | some true => s.raiseDecodeFault .unassignedIndex insn

/-- An unassigned index: bits 27:26 = 01 (R152). -/
def execUnassignedClass01 (insn : Word) (s : State) : Result := .next (unassignedEffect insn s)

/-- An unassigned index: bits 27:26 = 10 (R152). -/
def execUnassignedClass10 (insn : Word) (s : State) : Result := .next (unassignedEffect insn s)

/-- An unassigned index: bits 27:26 = 11 (R152). -/
def execUnassignedClass11 (insn : Word) (s : State) : Result := .next (unassignedEffect insn s)

/-- An unassigned index: the register-shift form with bit 7 set, D6 (R152). -/
def execUnassignedShiftBit7 (insn : Word) (s : State) : Result := .next (unassignedEffect insn s)

end Sys2Proof.Machine
end

