-- ==== Sys2Proof/Machine/Logical.lean ====
section
/-! DEFINITION. The logical group: AND, EOR, ORR, BIC, MVN, MOV, TST, TEQ (spec/42_alu_logical.md R90 to R100). -/

namespace Sys2Proof.Machine

/-- AND (R91). -/
def andEffect (sf : Bool) (rn rd : Reg) (op2 : Operand2) (s : State) : State :=
  logicalEffect (fun op1 op2 => op1 &&& op2) sf rn (some rd) op2 s

/-- AND, format DP_IMM (R91). -/
def execAndImm (cond : Cond) (sf : Bool) (rn rd : Reg) (rot : BitVec 4) (imm8 : BitVec 8) (s : State) : Result :=
  .next (conditionally cond (andEffect sf rn rd (.imm rot imm8)) s)

/-- AND, format DP_SHI (R91). -/
def execAndShi (cond : Cond) (sf : Bool) (rn rd : Reg) (shamt : BitVec 5) (ty : ShiftType) (rm : Reg) (s : State) : Result :=
  .next (conditionally cond (andEffect sf rn rd (.shi shamt ty rm)) s)

/-- AND, format DP_SHR (R91). -/
def execAndShr (cond : Cond) (sf : Bool) (rn rd rs : Reg) (ty : ShiftType) (rm : Reg) (s : State) : Result :=
  .next (conditionally cond (andEffect sf rn rd (.shr rs ty rm)) s)

/-- EOR (R92). -/
def eorEffect (sf : Bool) (rn rd : Reg) (op2 : Operand2) (s : State) : State :=
  logicalEffect (fun op1 op2 => op1 ^^^ op2) sf rn (some rd) op2 s

/-- EOR, format DP_IMM (R92). -/
def execEorImm (cond : Cond) (sf : Bool) (rn rd : Reg) (rot : BitVec 4) (imm8 : BitVec 8) (s : State) : Result :=
  .next (conditionally cond (eorEffect sf rn rd (.imm rot imm8)) s)

/-- EOR, format DP_SHI (R92). -/
def execEorShi (cond : Cond) (sf : Bool) (rn rd : Reg) (shamt : BitVec 5) (ty : ShiftType) (rm : Reg) (s : State) : Result :=
  .next (conditionally cond (eorEffect sf rn rd (.shi shamt ty rm)) s)

/-- EOR, format DP_SHR (R92). -/
def execEorShr (cond : Cond) (sf : Bool) (rn rd rs : Reg) (ty : ShiftType) (rm : Reg) (s : State) : Result :=
  .next (conditionally cond (eorEffect sf rn rd (.shr rs ty rm)) s)

/-- ORR (R93). -/
def orrEffect (sf : Bool) (rn rd : Reg) (op2 : Operand2) (s : State) : State :=
  logicalEffect (fun op1 op2 => op1 ||| op2) sf rn (some rd) op2 s

/-- ORR, format DP_IMM (R93). -/
def execOrrImm (cond : Cond) (sf : Bool) (rn rd : Reg) (rot : BitVec 4) (imm8 : BitVec 8) (s : State) : Result :=
  .next (conditionally cond (orrEffect sf rn rd (.imm rot imm8)) s)

/-- ORR, format DP_SHI (R93). -/
def execOrrShi (cond : Cond) (sf : Bool) (rn rd : Reg) (shamt : BitVec 5) (ty : ShiftType) (rm : Reg) (s : State) : Result :=
  .next (conditionally cond (orrEffect sf rn rd (.shi shamt ty rm)) s)

/-- ORR, format DP_SHR (R93). -/
def execOrrShr (cond : Cond) (sf : Bool) (rn rd rs : Reg) (ty : ShiftType) (rm : Reg) (s : State) : Result :=
  .next (conditionally cond (orrEffect sf rn rd (.shr rs ty rm)) s)

/-- BIC (R94). -/
def bicEffect (sf : Bool) (rn rd : Reg) (op2 : Operand2) (s : State) : State :=
  logicalEffect (fun op1 op2 => op1 &&& ~~~op2) sf rn (some rd) op2 s

/-- BIC, format DP_IMM (R94). -/
def execBicImm (cond : Cond) (sf : Bool) (rn rd : Reg) (rot : BitVec 4) (imm8 : BitVec 8) (s : State) : Result :=
  .next (conditionally cond (bicEffect sf rn rd (.imm rot imm8)) s)

/-- BIC, format DP_SHI (R94). -/
def execBicShi (cond : Cond) (sf : Bool) (rn rd : Reg) (shamt : BitVec 5) (ty : ShiftType) (rm : Reg) (s : State) : Result :=
  .next (conditionally cond (bicEffect sf rn rd (.shi shamt ty rm)) s)

/-- BIC, format DP_SHR (R94). -/
def execBicShr (cond : Cond) (sf : Bool) (rn rd rs : Reg) (ty : ShiftType) (rm : Reg) (s : State) : Result :=
  .next (conditionally cond (bicEffect sf rn rd (.shr rs ty rm)) s)

/-- MVN; operand 1 is not used (R95). -/
def mvnEffect (sf : Bool) (rn rd : Reg) (op2 : Operand2) (s : State) : State :=
  logicalEffect (fun _ op2 => ~~~op2) sf rn (some rd) op2 s

/-- MVN, format DP_IMM (R95). -/
def execMvnImm (cond : Cond) (sf : Bool) (rn rd : Reg) (rot : BitVec 4) (imm8 : BitVec 8) (s : State) : Result :=
  .next (conditionally cond (mvnEffect sf rn rd (.imm rot imm8)) s)

/-- MVN, format DP_SHI (R95). -/
def execMvnShi (cond : Cond) (sf : Bool) (rn rd : Reg) (shamt : BitVec 5) (ty : ShiftType) (rm : Reg) (s : State) : Result :=
  .next (conditionally cond (mvnEffect sf rn rd (.shi shamt ty rm)) s)

/-- MVN, format DP_SHR (R95). -/
def execMvnShr (cond : Cond) (sf : Bool) (rn rd rs : Reg) (ty : ShiftType) (rm : Reg) (s : State) : Result :=
  .next (conditionally cond (mvnEffect sf rn rd (.shr rs ty rm)) s)

/-- MOV; operand 1 is not used (R96). -/
def movEffect (sf : Bool) (rn rd : Reg) (op2 : Operand2) (s : State) : State :=
  logicalEffect (fun _ op2 => op2) sf rn (some rd) op2 s

/-- MOV, format DP_IMM (R96). -/
def execMovImm (cond : Cond) (sf : Bool) (rn rd : Reg) (rot : BitVec 4) (imm8 : BitVec 8) (s : State) : Result :=
  .next (conditionally cond (movEffect sf rn rd (.imm rot imm8)) s)

/-- MOV, format DP_SHI (R96). -/
def execMovShi (cond : Cond) (sf : Bool) (rn rd : Reg) (shamt : BitVec 5) (ty : ShiftType) (rm : Reg) (s : State) : Result :=
  .next (conditionally cond (movEffect sf rn rd (.shi shamt ty rm)) s)

/-- MOV, format DP_SHR (R96). -/
def execMovShr (cond : Cond) (sf : Bool) (rn rd rs : Reg) (ty : ShiftType) (rm : Reg) (s : State) : Result :=
  .next (conditionally cond (movEffect sf rn rd (.shr rs ty rm)) s)

/-- TST: no register write (R97). -/
def tstEffect (sf : Bool) (rn _rd : Reg) (op2 : Operand2) (s : State) : State :=
  logicalEffect (fun op1 op2 => op1 &&& op2) sf rn none op2 s

/-- TST, format DP_IMM (R97). -/
def execTstImm (cond : Cond) (sf : Bool) (rn rd : Reg) (rot : BitVec 4) (imm8 : BitVec 8) (s : State) : Result :=
  .next (conditionally cond (tstEffect sf rn rd (.imm rot imm8)) s)

/-- TST, format DP_SHI (R97). -/
def execTstShi (cond : Cond) (sf : Bool) (rn rd : Reg) (shamt : BitVec 5) (ty : ShiftType) (rm : Reg) (s : State) : Result :=
  .next (conditionally cond (tstEffect sf rn rd (.shi shamt ty rm)) s)

/-- TST, format DP_SHR (R97). -/
def execTstShr (cond : Cond) (sf : Bool) (rn rd rs : Reg) (ty : ShiftType) (rm : Reg) (s : State) : Result :=
  .next (conditionally cond (tstEffect sf rn rd (.shr rs ty rm)) s)

/-- TEQ: no register write (R98). -/
def teqEffect (sf : Bool) (rn _rd : Reg) (op2 : Operand2) (s : State) : State :=
  logicalEffect (fun op1 op2 => op1 ^^^ op2) sf rn none op2 s

/-- TEQ, format DP_IMM (R98). -/
def execTeqImm (cond : Cond) (sf : Bool) (rn rd : Reg) (rot : BitVec 4) (imm8 : BitVec 8) (s : State) : Result :=
  .next (conditionally cond (teqEffect sf rn rd (.imm rot imm8)) s)

/-- TEQ, format DP_SHI (R98). -/
def execTeqShi (cond : Cond) (sf : Bool) (rn rd : Reg) (shamt : BitVec 5) (ty : ShiftType) (rm : Reg) (s : State) : Result :=
  .next (conditionally cond (teqEffect sf rn rd (.shi shamt ty rm)) s)

/-- TEQ, format DP_SHR (R98). -/
def execTeqShr (cond : Cond) (sf : Bool) (rn rd rs : Reg) (ty : ShiftType) (rm : Reg) (s : State) : Result :=
  .next (conditionally cond (teqEffect sf rn rd (.shr rs ty rm)) s)

end Sys2Proof.Machine
end

