-- ==== Sys2Proof/Machine/Dispatch.lean ====
section
/-! DEFINITION. One arm per instruction: each calls its own meaning. -/

namespace Sys2Proof.Machine

def exec (i : Instr) (s : State) : Host.Outcome State Fault Refusal :=
  match i with
  | .andImm cond sf rn rd rot imm8 => Sys2Proof.Machine.execAndImm cond sf rn rd rot imm8 s
  | .andShi cond sf rn rd shamt ty rm => Sys2Proof.Machine.execAndShi cond sf rn rd shamt ty rm s
  | .andShr cond sf rn rd rs ty rm => Sys2Proof.Machine.execAndShr cond sf rn rd rs ty rm s
  | .eorImm cond sf rn rd rot imm8 => Sys2Proof.Machine.execEorImm cond sf rn rd rot imm8 s
  | .eorShi cond sf rn rd shamt ty rm => Sys2Proof.Machine.execEorShi cond sf rn rd shamt ty rm s
  | .eorShr cond sf rn rd rs ty rm => Sys2Proof.Machine.execEorShr cond sf rn rd rs ty rm s
  | .subImm cond sf rn rd rot imm8 => Sys2Proof.Machine.execSubImm cond sf rn rd rot imm8 s
  | .subShi cond sf rn rd shamt ty rm => Sys2Proof.Machine.execSubShi cond sf rn rd shamt ty rm s
  | .subShr cond sf rn rd rs ty rm => Sys2Proof.Machine.execSubShr cond sf rn rd rs ty rm s
  | .rsbImm cond sf rn rd rot imm8 => Sys2Proof.Machine.execRsbImm cond sf rn rd rot imm8 s
  | .rsbShi cond sf rn rd shamt ty rm => Sys2Proof.Machine.execRsbShi cond sf rn rd shamt ty rm s
  | .rsbShr cond sf rn rd rs ty rm => Sys2Proof.Machine.execRsbShr cond sf rn rd rs ty rm s
  | .addImm cond sf rn rd rot imm8 => Sys2Proof.Machine.execAddImm cond sf rn rd rot imm8 s
  | .addShi cond sf rn rd shamt ty rm => Sys2Proof.Machine.execAddShi cond sf rn rd shamt ty rm s
  | .addShr cond sf rn rd rs ty rm => Sys2Proof.Machine.execAddShr cond sf rn rd rs ty rm s
  | .adcImm cond sf rn rd rot imm8 => Sys2Proof.Machine.execAdcImm cond sf rn rd rot imm8 s
  | .adcShi cond sf rn rd shamt ty rm => Sys2Proof.Machine.execAdcShi cond sf rn rd shamt ty rm s
  | .adcShr cond sf rn rd rs ty rm => Sys2Proof.Machine.execAdcShr cond sf rn rd rs ty rm s
  | .sbcImm cond sf rn rd rot imm8 => Sys2Proof.Machine.execSbcImm cond sf rn rd rot imm8 s
  | .sbcShi cond sf rn rd shamt ty rm => Sys2Proof.Machine.execSbcShi cond sf rn rd shamt ty rm s
  | .sbcShr cond sf rn rd rs ty rm => Sys2Proof.Machine.execSbcShr cond sf rn rd rs ty rm s
  | .rscImm cond sf rn rd rot imm8 => Sys2Proof.Machine.execRscImm cond sf rn rd rot imm8 s
  | .rscShi cond sf rn rd shamt ty rm => Sys2Proof.Machine.execRscShi cond sf rn rd shamt ty rm s
  | .rscShr cond sf rn rd rs ty rm => Sys2Proof.Machine.execRscShr cond sf rn rd rs ty rm s
  | .tstImm cond sf rn rd rot imm8 => Sys2Proof.Machine.execTstImm cond sf rn rd rot imm8 s
  | .tstShi cond sf rn rd shamt ty rm => Sys2Proof.Machine.execTstShi cond sf rn rd shamt ty rm s
  | .tstShr cond sf rn rd rs ty rm => Sys2Proof.Machine.execTstShr cond sf rn rd rs ty rm s
  | .teqImm cond sf rn rd rot imm8 => Sys2Proof.Machine.execTeqImm cond sf rn rd rot imm8 s
  | .teqShi cond sf rn rd shamt ty rm => Sys2Proof.Machine.execTeqShi cond sf rn rd shamt ty rm s
  | .teqShr cond sf rn rd rs ty rm => Sys2Proof.Machine.execTeqShr cond sf rn rd rs ty rm s
  | .cmpImm cond sf rn rd rot imm8 => Sys2Proof.Machine.execCmpImm cond sf rn rd rot imm8 s
  | .cmpShi cond sf rn rd shamt ty rm => Sys2Proof.Machine.execCmpShi cond sf rn rd shamt ty rm s
  | .cmpShr cond sf rn rd rs ty rm => Sys2Proof.Machine.execCmpShr cond sf rn rd rs ty rm s
  | .cmnImm cond sf rn rd rot imm8 => Sys2Proof.Machine.execCmnImm cond sf rn rd rot imm8 s
  | .cmnShi cond sf rn rd shamt ty rm => Sys2Proof.Machine.execCmnShi cond sf rn rd shamt ty rm s
  | .cmnShr cond sf rn rd rs ty rm => Sys2Proof.Machine.execCmnShr cond sf rn rd rs ty rm s
  | .orrImm cond sf rn rd rot imm8 => Sys2Proof.Machine.execOrrImm cond sf rn rd rot imm8 s
  | .orrShi cond sf rn rd shamt ty rm => Sys2Proof.Machine.execOrrShi cond sf rn rd shamt ty rm s
  | .orrShr cond sf rn rd rs ty rm => Sys2Proof.Machine.execOrrShr cond sf rn rd rs ty rm s
  | .movImm cond sf rn rd rot imm8 => Sys2Proof.Machine.execMovImm cond sf rn rd rot imm8 s
  | .movShi cond sf rn rd shamt ty rm => Sys2Proof.Machine.execMovShi cond sf rn rd shamt ty rm s
  | .movShr cond sf rn rd rs ty rm => Sys2Proof.Machine.execMovShr cond sf rn rd rs ty rm s
  | .bicImm cond sf rn rd rot imm8 => Sys2Proof.Machine.execBicImm cond sf rn rd rot imm8 s
  | .bicShi cond sf rn rd shamt ty rm => Sys2Proof.Machine.execBicShi cond sf rn rd shamt ty rm s
  | .bicShr cond sf rn rd rs ty rm => Sys2Proof.Machine.execBicShr cond sf rn rd rs ty rm s
  | .mvnImm cond sf rn rd rot imm8 => Sys2Proof.Machine.execMvnImm cond sf rn rd rot imm8 s
  | .mvnShi cond sf rn rd shamt ty rm => Sys2Proof.Machine.execMvnShi cond sf rn rd shamt ty rm s
  | .mvnShr cond sf rn rd rs ty rm => Sys2Proof.Machine.execMvnShr cond sf rn rd rs ty rm s
  | .reservedCondition insn => Sys2Proof.Machine.execReservedCondition insn s
  | .unassignedClass01 insn => Sys2Proof.Machine.execUnassignedClass01 insn s
  | .unassignedClass10 insn => Sys2Proof.Machine.execUnassignedClass10 insn s
  | .unassignedClass11 insn => Sys2Proof.Machine.execUnassignedClass11 insn s
  | .unassignedShiftBit7 insn => Sys2Proof.Machine.execUnassignedShiftBit7 insn s

end Sys2Proof.Machine
end

