-- ==== Sys2Proof/Machine/Fetch.lean ====
section
/-! DEFINITION. What a step fetches, and how a word is placed where the next step fetches it. -/

namespace Sys2Proof.Machine

/-- The instruction that a step from this state fetches and decodes. -/
def State.fetchedInstr (s : State) : Instr := decodeWord s.fetchedWord

/-- Place a word where the next step fetches its instruction. The fetch needs the engine running and a fetch address
that is a multiple of 4: with T = 1 and bit 1 of register 15 set, that bit is cleared. Nothing else changes. Log 18. -/
def State.placeAtFetch (s : State) (w : Word) : State :=
  let s' : State :=
    if s.fetchAddr.extractLsb' 0 2 = 0#2 then s else s.writeReg 15 (s.readReg 15 &&& 0xFFFFFFFD#32)
  { s' with status := .running, mem := Memory.writeWord s'.mem s'.fetchAddr w }

end Sys2Proof.Machine
end

