-- ==== Sys2Proof/Machine/Step.lean ====
section
/-! DEFINITION. One step of the engine (spec/45_fetch_execute.md R140). -/

namespace Sys2Proof.Machine

/-- One `step` event: nothing while halted (60_exceptions.md R154 (d)); otherwise fetch, decode, and run the
instruction, whose meaning begins with its condition. Register 15 is not advanced (R146). -/
def step (s : State) : Host.Outcome State Fault Refusal :=
  match s.status with
  | .halted .. => .next s
  | .running => exec s.fetchedInstr s

/-- The state with an instruction, its bits numbered as the opcode table numbers them, stored where `step` fetches its
next instruction. -/
def State.withFetchWord (s : State) (nbits w : Nat) : State := s.placeAtFetch (BitVec.ofNat 32 (w % 2 ^ nbits))

end Sys2Proof.Machine
end

