-- ==== Sys2Proof/Machine/Table.lean ====
section
/-! DEFINITION. The dispatch table (spec/44_dispatch_table.md) as a pure function of the 12-bit index, and the step of
45_fetch_execute.md R140 written over it: fetch, condition, index, table, handler. `step` decodes instead, which R136
allows where the table's function is reproduced exactly; that the two agree is a statement. -/

namespace Sys2Proof.Machine

/-- `DispatchIndex(insn) = insn[27:20] : insn[7:4]` (30_encoding.md R51). -/
def dispatchIndex (insn : Word) : BitVec 12 := insn.extractLsb' 20 8 ++ insn.extractLsb' 4 4

/-- The nine operand encodings of a handler (R131): four types by immediate, four by register, and the rotated
immediate. -/
inductive OperandEncoding where
  | byImm (ty : ShiftType)
  | byReg (ty : ShiftType)
  | imm
  deriving DecidableEq, Repr

/-- A handler: operation, S, operand encoding (R131). -/
structure Handler where
  op : AluOp
  sf : Bool
  enc : OperandEncoding
  deriving DecidableEq, Repr

/-- The entry at an index, none where it is unassigned (R132), for a value of REG_SHIFT_BIT7_SET (R133). -/
def handlerAt (mode : RegShiftBit7) (i : BitVec 12) : Option Handler :=
  let op := AluOp.ofCode (i.extractLsb' 5 4)
  let sf := i.getLsbD 4
  let ty := ShiftType.ofCode (i.extractLsb' 1 2)
  if i.extractLsb' 10 2 != 0b00#2 then none
  else if i.getLsbD 9 then some ⟨op, sf, .imm⟩
  else if !i.getLsbD 0 then some ⟨op, sf, .byImm ty⟩
  else if !i.getLsbD 3 then some ⟨op, sf, .byReg ty⟩
  else match mode with
    | .fault => none
    | .ignoreBit7 => some ⟨op, sf, .byReg ty⟩

/-- Operand 2 as a handler takes it from the instruction word (R131: it extracts the remaining fields itself). -/
def OperandEncoding.operand2 (enc : OperandEncoding) (insn : Word) : Operand2 :=
  match enc with
  | .imm => .imm (insn.extractLsb' 8 4) (insn.extractLsb' 0 8)
  | .byImm ty => .shi (insn.extractLsb' 7 5) ty (insn.extractLsb' 0 4).toFin
  | .byReg ty => .shr (insn.extractLsb' 8 4).toFin ty (insn.extractLsb' 0 4).toFin

/-- The effect of an operation that has passed its condition, by its code (30_encoding.md R44). -/
def aluEffect (op : AluOp) (sf : Bool) (rn rd : Reg) (op2 : Operand2) (s : State) : State :=
  match op with
  | .and => andEffect sf rn rd op2 s
  | .eor => eorEffect sf rn rd op2 s
  | .sub => subEffect sf rn rd op2 s
  | .rsb => rsbEffect sf rn rd op2 s
  | .add => addEffect sf rn rd op2 s
  | .adc => adcEffect sf rn rd op2 s
  | .sbc => sbcEffect sf rn rd op2 s
  | .rsc => rscEffect sf rn rd op2 s
  | .tst => tstEffect sf rn rd op2 s
  | .teq => teqEffect sf rn rd op2 s
  | .cmp => cmpEffect sf rn rd op2 s
  | .cmn => cmnEffect sf rn rd op2 s
  | .orr => orrEffect sf rn rd op2 s
  | .mov => movEffect sf rn rd op2 s
  | .bic => bicEffect sf rn rd op2 s
  | .mvn => mvnEffect sf rn rd op2 s

/-- A handler invoked "with the full instruction word" (45_fetch_execute.md R145). -/
def Handler.run (h : Handler) (insn : Word) (s : State) : State :=
  aluEffect h.op h.sf (insn.extractLsb' 16 4).toFin (insn.extractLsb' 12 4).toFin (h.enc.operand2 insn) s

/-- `Step(state, FetchWord)` (R140), over the dispatch table. -/
def tableStep (s : State) : State :=
  match s.status with
  | .halted .. => s
  | .running =>
    let insn := s.fetchedWord
    match s.evaluates insn with
    | none => s.raiseDecodeFault .reservedCondition insn
    | some false => s
    | some true =>
      match handlerAt Config.regShiftBit7Set (dispatchIndex insn) with
      | none => s.raiseDecodeFault .unassignedIndex insn
      | some h => h.run insn s

/-- The word a step passes to the trace observer (R147, D23): after a successful table lookup, none otherwise. -/
def State.traced (s : State) : Option Word :=
  match s.status with
  | .halted .. => none
  | .running =>
    if s.evaluates s.fetchedWord = some true ∧
        (handlerAt Config.regShiftBit7Set (dispatchIndex s.fetchedWord)).isSome = true then
      some s.fetchedWord
    else none

end Sys2Proof.Machine
end

