-- ==== Sys2Proof/Machine/HostPort.lean ====
section
/-! DEFINITION. What the host can do to the machine between steps (spec/00_scope.md R6 and section 6): the register
port, the fault port, reset, memory contents, and the reference host's advance of register 15. The trace port is
`State.traced`. -/

namespace Sys2Proof.Machine

/-- What the `fault` interface shows (60_exceptions.md R153): code 0, 1 or 2, and with a fault the word and the address
of the faulting step. Log 19. -/
def State.faultCode (s : State) : Nat :=
  match s.status with
  | .running => 0
  | .halted .reservedCondition _ _ => 1
  | .halted .unassignedIndex _ _ => 2

/-- The word and the fetch address the `fault` interface shows with the code (R153). -/
def State.faultInfo (s : State) : Option (Word × Word) :=
  match s.status with
  | .running => none
  | .halted _ insn addr => some (insn, addr)

/-- The `reset` event (70_reset_and_hazards.md R170): every register to its reset value, the latch cleared, memory not
touched. -/
def State.hostReset (s : State) : State := { State.reset with mem := s.mem }

/-- One action of the host between steps. -/
inductive HostAction where
  /-- Write a general register through the register port (10_state.md R14; 00_scope.md section 6). -/
  | writeReg (i : Reg) (v : Word)
  /-- Write the raw CPSR word (R14). -/
  | writeCpsr (w : Word)
  /-- Write a one-bit field of the CPSR (R14). -/
  | writePsrBit (b : PsrBit) (v : Bool)
  /-- Write the mode field of the CPSR (R14, R19). -/
  | writeMode (m : BitVec 5)
  /-- Change one byte of memory (20_memory.md R39). -/
  | writeByte (addr : Word) (v : Byte)
  /-- Raise `reset` (R170). -/
  | reset
  deriving DecidableEq, Repr

/-- The state after one action of the host. -/
def State.hostAct (s : State) : HostAction → State
  | .writeReg i v => s.writeReg i v
  | .writeCpsr w => { s with cpsr := w }
  | .writePsrBit b v => { s with cpsr := Psr.writeBit s.cpsr b v }
  | .writeMode m => { s with cpsr := Psr.writeMode s.cpsr m }
  | .writeByte addr v => { s with mem := Memory.write s.mem addr.toNat v }
  | .reset => s.hostReset

/-- HOST_ADVANCE of the reference host (45_fetch_execute.md R149, D12, D21): register 15 plus 4 modulo 2^32 after a step
that did not fault, nothing where the engine is halted. Log 11. -/
def State.hostAdvance (s : State) : State :=
  match s.status with
  | .running => s.writeReg 15 (s.readReg 15 + Config.hostAdvanceBy)
  | .halted .. => s

/-- One step under a host that acts as `advance` after it: a parameter, as R149 and D12 ask. -/
def stepUnder (advance : State → State) (s : State) : Host.Outcome State Fault Refusal :=
  match step s with
  | .next t => .next (advance t)
  | .fault r => .fault r
  | .refused r => .refused r

/-- `k` steps under a host (R149: a run is a step count from a given state). -/
def runUnder (advance : State → State) : Nat → State → Host.Outcome State Fault Refusal
  | 0, s => .next s
  | k + 1, s =>
    match stepUnder advance s with
    | .next t => runUnder advance k t
    | .fault r => .fault r
    | .refused r => .refused r

end Sys2Proof.Machine
end

