-- ==== Sys2Proof/Safety.lean ====
section
/-! DEFINITION. What counts as a safe run, and the invariant of the machine, in the terms the statements use. -/

namespace Sys2Proof

/-- The operations that write their destination register (30_encoding.md R44, column "writes Rd"). -/
def AluOp.writesDest : AluOp → Bool
  | .tst | .teq | .cmp | .cmn => false
  | .and | .eor | .sub | .rsb | .add | .adc | .sbc | .rsc | .orr | .mov | .bic | .mvn => true

/-- The logical group (30_encoding.md R44, column "group"). -/
def AluOp.isLogical : AluOp → Bool
  | .and | .eor | .tst | .teq | .orr | .mov | .bic | .mvn => true
  | .sub | .rsb | .add | .adc | .sbc | .rsc | .cmp | .cmn => false

end Sys2Proof

namespace Sys2Proof.Machine

/-- A run is a success only while the engine is running: a halted state is never a successful end
(60_exceptions.md R154). -/
def State.isRunning (s : State) : Bool := s.status == .running

/-- The word and the flags call for this fault (R151, R152, R155). -/
def State.deserves (s : State) (cause : DecodeFault) (insn : Word) : Prop :=
  match cause with
  | .reservedCondition => s.evaluates insn = none
  | .unassignedIndex => s.evaluates insn = some true ∧ handlerAt Config.regShiftBit7Set (dispatchIndex insn) = none

/-- A latched fault tells the truth about the state it was latched in: its address is the fetch address, its word is the
word there, and word and flags call for its cause. It rests on R154 (a): the faulting step changes nothing else. -/
def State.latchHonest (s : State) : Prop :=
  match s.status with
  | .running => True
  | .halted cause insn addr => addr = s.fetchAddr ∧ insn = s.fetchedWord ∧ s.deserves cause insn

/-- The invariant of the engine: memory in its canonical form and an honest latch. -/
def State.Inv (s : State) : Prop := Memory.wf s.mem = true ∧ s.latchHonest

/-- The state ends a run of `k` steps under the reference host, started after reset with this memory. -/
def ReachedUnderReferenceHost (mem : List Host.Cell) (k : Nat) (t : State) : Prop :=
  runUnder State.hostAdvance k { State.reset with mem := mem } = .next t

/-- A run of `k` steps under the reference host ran to completion: it ends with the engine running. -/
def RanToCompletion (mem : List Host.Cell) (k : Nat) (t : State) : Prop :=
  ReachedUnderReferenceHost mem k t ∧ t.isRunning = true

end Sys2Proof.Machine
end

