-- ==== Sys2Proof/Certificates/Slice0/Obligations.lean ====
section
/-! DEFINITION. The statements about the model, for the provers. Each docstring names the rules of spec/ it formalises,
and says where a clause rests on a decision of the spec (D<n>) or on a choice of the model (log <n>). -/

open Sys2Proof Sys2Proof.Machine

/-! ### The terms the statements share -/

/-- What no instruction writes: the shadow registers, the saved PSRs, the engine status (a fault aside), every byte of
memory, and the CPSR below its four flags. -/
def Sys2Proof.Claims.Frame (s t : State) : Prop :=
  t.banks = s.banks ∧ t.spsr = s.spsr ∧ t.status = s.status ∧ t.mem = s.mem ∧
    (∀ a, Memory.read t.mem a = Memory.read s.mem a) ∧ t.cpsr.extractLsb' 0 28 = s.cpsr.extractLsb' 0 28

/-- Register `rd` holds `v` and every other register what it held. -/
def Sys2Proof.Claims.OnlyRegister (s t : State) (rd : Reg) (v : Word) : Prop :=
  t.readReg rd = v ∧ ∀ j, j ≠ rd → t.readReg j = s.readReg j

/-- No register changes. -/
def Sys2Proof.Claims.NoRegister (s t : State) : Prop := ∀ j, t.readReg j = s.readReg j

/-- The four flags hold these values. -/
def Sys2Proof.Claims.Flags (t : State) (n z c v : Bool) : Prop :=
  t.psr .N = n ∧ t.psr .Z = z ∧ t.psr .C = c ∧ t.psr .V = v

/-- The flags after an instruction: the given ones with S = 1; with S = 0 the whole CPSR is what it was. -/
def Sys2Proof.Claims.FlagsIfSet (s t : State) (sf : Bool) (n z c v : Bool) : Prop :=
  (sf = true → Sys2Proof.Claims.Flags t n z c v) ∧ (sf = false → t.cpsr = s.cpsr)

/-- The operation is encoded `cond 00 I code S Rn Rd operand2`, in each of the three formats (30_encoding.md R41,
R42). -/
def Sys2Proof.Claims.EncodedWith (op : AluOp) (code : BitVec 4) : Prop :=
  ∀ cond sf rn rd op2,
    let w := encode (.dp op cond sf rn rd op2)
    w.extractLsb' 28 4 = cond.code ∧ w.extractLsb' 26 2 = 0b00#2 ∧ w.getLsbD 25 = op2.isImm ∧
      w.extractLsb' 21 4 = code ∧ w.getLsbD 20 = sf ∧ (w.extractLsb' 16 4).toFin = rn ∧
      (w.extractLsb' 12 4).toFin = rd ∧ w.extractLsb' 0 12 = op2.bits

/-- A logical-group instruction whose condition passes completes with this result: written to Rd or to no register,
N, Z from the result, C from the shifter, V kept, everything else unchanged. -/
def Sys2Proof.Claims.LogicalRun (op : AluOp) (writes : Bool) (result : Word → Word → Word) : Prop :=
  ∀ cond sf rn rd op2 (s : State), s.passes cond = true →
    let r := result (s.readOperand rn) (s.shifterOperand op2).value
    ∃ t, exec (.dp op cond sf rn rd op2) s = .next t ∧
      (if writes then Sys2Proof.Claims.OnlyRegister s t rd r else Sys2Proof.Claims.NoRegister s t) ∧
      Sys2Proof.Claims.FlagsIfSet s t sf r.msb (r == 0#32) (s.shifterOperand op2).carry (s.psr .V) ∧
      Sys2Proof.Claims.Frame s t

/-- An arithmetic-group instruction whose condition passes completes with this result, carry and overflow, each a
function of operand 1, operand 2 and the carry flag before it; everything else is unchanged. -/
def Sys2Proof.Claims.ArithmeticRun (op : AluOp) (writes : Bool) (result : Word → Word → Bool → Word)
    (carry : Word → Word → Bool → Prop) (overflow : Word → Word → Bool → Prop) : Prop :=
  ∀ cond sf rn rd op2 (s : State), s.passes cond = true →
    let a := s.readOperand rn
    let b := (s.shifterOperand op2).value
    let r := result a b (s.psr .C)
    ∃ t c v, exec (.dp op cond sf rn rd op2) s = .next t ∧
      (if writes then Sys2Proof.Claims.OnlyRegister s t rd r else Sys2Proof.Claims.NoRegister s t) ∧
      (c = true ↔ carry a b (s.psr .C)) ∧ (v = true ↔ overflow a b (s.psr .C)) ∧
      Sys2Proof.Claims.FlagsIfSet s t sf r.msb (r == 0#32) c v ∧ Sys2Proof.Claims.Frame s t

/-- What SBC and RSC subtract beside the subtrahend: `1 - C` (43_alu_arithmetic.md R115). -/
def Sys2Proof.Claims.borrowIn (c : Bool) : Nat := 1 - c.toNat

/-! ### Encoding, decoding, and the dispatch table -/

/-- Decoding an encoded well-formed instruction gives it back, for every constructor and every operand value
(30_encoding.md R42, R46, R59; the fault rows R53, R54 with D6). -/
def Obligations.DecodeInvertsEncode : Prop := ∀ i : Instr, i.wellFormed = true → decodeWord (encode i) = i

/-- Every 32-bit word decodes to a well-formed instruction that encodes to that word: no bit of a word is dropped and no
word is left over (30_encoding.md R40, R45, R46). -/
def Obligations.EncodeInvertsDecode : Prop :=
  ∀ w : Word, encode (decodeWord w) = w ∧ (decodeWord w).wellFormed = true

/-- The decoding procedure of R46, in its order and with its field positions (R41 to R44). The register-shift form with
bit 7 set is unassigned by the spec's decision D6 (log 6). -/
def Obligations.DecodingFollowsTheProcedure : Prop :=
  ∀ w : Word,
    (w.extractLsb' 28 4 = 0b1111#4 → decodeWord w = .reservedCondition w) ∧
    (∀ cond : Cond, w.extractLsb' 28 4 = cond.code →
      (w.extractLsb' 26 2 = 0b01#2 → decodeWord w = .unassignedClass01 w) ∧
      (w.extractLsb' 26 2 = 0b10#2 → decodeWord w = .unassignedClass10 w) ∧
      (w.extractLsb' 26 2 = 0b11#2 → decodeWord w = .unassignedClass11 w) ∧
      (w.extractLsb' 26 2 = 0b00#2 → w.getLsbD 25 = false → w.getLsbD 4 = true → w.getLsbD 7 = true →
        decodeWord w = .unassignedShiftBit7 w) ∧
      (∀ op : AluOp, w.extractLsb' 26 2 = 0b00#2 → w.extractLsb' 21 4 = op.code →
        let form := fun op2 =>
          decodeWord w = .dp op cond (w.getLsbD 20) (w.extractLsb' 16 4).toFin (w.extractLsb' 12 4).toFin op2
        (w.getLsbD 25 = true → form (.imm (w.extractLsb' 8 4) (w.extractLsb' 0 8))) ∧
        (∀ ty : ShiftType, w.getLsbD 25 = false → w.extractLsb' 5 2 = ty.code →
          (w.getLsbD 4 = false → form (.shi (w.extractLsb' 7 5) ty (w.extractLsb' 0 4).toFin)) ∧
          (w.getLsbD 4 = true → w.getLsbD 7 = false →
            form (.shr (w.extractLsb' 8 4).toFin ty (w.extractLsb' 0 4).toFin)))))

/-- R45: which words are in-scope data-processing instructions, that every combination of fields is one and has a
defined meaning in every state, and that there are 288 handlers (16 operations, two settings of S, nine operand
encodings), each of which the dispatch table holds. -/
def Obligations.InScopeWordsAreExactlyThese : Prop :=
  (∀ w : Word, (∃ op cond sf rn rd op2, decodeWord w = .dp op cond sf rn rd op2) ↔
    w.extractLsb' 28 4 ≠ 0b1111#4 ∧ w.extractLsb' 26 2 = 0b00#2 ∧
      ¬(w.getLsbD 25 = false ∧ w.getLsbD 4 = true ∧ w.getLsbD 7 = true)) ∧
  (∀ op cond sf rn rd op2, (∃ w, decodeWord w = .dp op cond sf rn rd op2) ∧
    ∀ s, ∃ t, exec (.dp op cond sf rn rd op2) s = .next t) ∧
  (∃ hs : List Handler, hs.length = 288 ∧ hs.Nodup ∧
    ∀ h, h ∈ hs ∧ ∃ i, handlerAt .fault i = some h)

/-- Words of 95_test_vectors.md and of the rules' examples, one for each group and form and for each kind of faulting
row, decode to the instruction they stand for. -/
def Obligations.SampleWordsDecode : Prop :=
  decodeWord 0xE0180028#32 = .andShi .al true 8 0 0#5 .lsr 8 ∧
  decodeWord 0xE0810312#32 = .addShr .al false 1 0 3 .lsl 2 ∧
  decodeWord 0xE3A004FF#32 = .movImm .al false 0 0 4#4 0xFF#8 ∧
  decodeWord 0xE1510312#32 = .cmpShr .al true 1 0 3 .lsl 2 ∧
  decodeWord 0x42F12000#32 = .rscImm .mi true 1 2 0#4 0#8 ∧
  decodeWord 0xE1213002#32 = .teqShi .al false 1 3 0#5 .lsl 2 ∧
  decodeWord 0xE0010392#32 = .unassignedShiftBit7 0xE0010392#32 ∧
  decodeWord 0xE5900000#32 = .unassignedClass01 0xE5900000#32 ∧
  decodeWord 0xEA000000#32 = .unassignedClass10 0xEA000000#32 ∧
  decodeWord 0xEF000000#32 = .unassignedClass11 0xEF000000#32 ∧
  decodeWord 0xF1A00000#32 = .reservedCondition 0xF1A00000#32

/-- R51: the dispatch index as a number, and which field each of its bits is. -/
def Obligations.DispatchIndexIsItsBits : Prop :=
  ∀ w : Word,
    (dispatchIndex w).toNat = ((w.toNat >>> 16) &&& 0xFF0) ||| ((w.toNat >>> 4) &&& 0xF) ∧
    (dispatchIndex w).extractLsb' 4 8 = w.extractLsb' 20 8 ∧ (dispatchIndex w).extractLsb' 0 4 = w.extractLsb' 4 4 ∧
    (dispatchIndex w).extractLsb' 10 2 = w.extractLsb' 26 2 ∧ (dispatchIndex w).getLsbD 9 = w.getLsbD 25 ∧
    (dispatchIndex w).extractLsb' 5 4 = w.extractLsb' 21 4 ∧ (dispatchIndex w).getLsbD 4 = w.getLsbD 20

/-- R132: the entries of the dispatch table by the layout of its register block and its immediate block, and nothing at
or above 0x400. -/
def Obligations.DispatchTableLayout : Prop :=
  (∀ op : AluOp, ∀ sf : Bool,
    let entry := fun k : Nat => handlerAt .fault (BitVec.ofNat 12 (op.code.toNat * 32 + sf.toNat * 16 + k))
    (List.range 16).map entry =
      ([some (.byImm .lsl), some (.byReg .lsl), some (.byImm .lsr), some (.byReg .lsr), some (.byImm .asr),
        some (.byReg .asr), some (.byImm .ror), some (.byReg .ror), some (.byImm .lsl), none, some (.byImm .lsr), none,
        some (.byImm .asr), none, some (.byImm .ror), none].map (Option.map (Handler.mk op sf))) ∧
    ∀ k < 16, entry (0x200 + k) = some ⟨op, sf, .imm⟩) ∧
  ∀ i : BitVec 12, 0x400 ≤ i.toNat → handlerAt .fault i = none

/-- R133, which the spec derives from R132: how many of the 4096 entries are assigned, for both values of
REG_SHIFT_BIT7_SET (D6). -/
def Obligations.DispatchTableCounts : Prop :=
  let assigned := fun (mode : RegShiftBit7) (lo n : Nat) =>
    ((List.range n).filter fun k => (handlerAt mode (BitVec.ofNat 12 (lo + k))).isSome).length
  assigned .fault 0 512 = 384 ∧ assigned .fault 512 512 = 512 ∧ assigned .fault 1024 3072 = 0 ∧
  assigned .ignoreBit7 0 512 = 512 ∧ assigned .ignoreBit7 512 512 = 512 ∧ assigned .ignoreBit7 1024 3072 = 0

/-! ### The step -/

/-- `step`, which decodes, is the step of R140, which looks the dispatch index up in the table and runs the handler
there. The clauses R140 does not give alone: that a decode fault is the outcome next is the model's choice, with the
latch of the spec's decision D11 (log 10); what it records is D22 (log 19); that the register-shift slots with bit 7
set are unassigned is D6 (log 6). -/
def Obligations.StepIsTheDispatchTableStep : Prop := ∀ s, step s = .next (tableStep s)

/-- A step of a running engine is `exec` of the instruction that the four bytes at the fetch address decode to, at that
same state: the step adds nothing (R140 to R142, R146; byte order D13, log 12), and while halted it is no instruction
at all. -/
def Obligations.StepRunsTheDecodedInstruction : Prop :=
  (∀ s i, s.status = .running → s.fetchAddr.extractLsb' 0 2 = 0#2 →
    decode [Memory.read s.mem s.fetchAddr.toNat, Memory.read s.mem (s.fetchAddr.toNat + 1),
      Memory.read s.mem (s.fetchAddr.toNat + 2), Memory.read s.mem (s.fetchAddr.toNat + 3)] = .ok (i, []) →
    step s = exec i s) ∧
  (∀ s, s.status = .running → step s = exec (decodeWord s.fetchedWord) s)

/-- R148 with R150: every step of a running engine is one of three: a clean skip, an execution to completion, or a
decode fault that the word and the flags call for, which changes nothing but the status; there is no other outcome.
That a faulting step answers next, with the engine halted, is the model's choice with the spec's decision D11 (log 10);
what it records, the fetched word and the fetch address, is D22 (log 19); which words are unassigned rests on D6
(log 6). -/
def Obligations.EveryStepSkipsExecutesOrFaults : Prop :=
  ∀ s, s.status = .running → ∃ t, step s = .next t ∧
    ((s.evaluates s.fetchedWord = some false ∧ t = s) ∨
     (∃ op cond sf rn rd op2, s.fetchedInstr = .dp op cond sf rn rd op2 ∧ s.passes cond = true ∧
       t = aluEffect op sf rn rd op2 s ∧ t.status = .running) ∨
     (∃ cause, s.deserves cause s.fetchedWord ∧
       t = { s with status := .halted cause s.fetchedWord s.fetchAddr }))

/-- R28, R154 (d), R157, by the spec's decision D11 (log 10): while halted any number of steps does nothing, no action
of the host but reset leaves the halt, and reset does. -/
def Obligations.HaltLastsUntilReset : Prop :=
  ∀ (s : State) cause insn addr, s.status = .halted cause insn addr →
    (∀ k, Host.Core.run Sys2Proof.core k s = .next s) ∧
    (∀ a, a ≠ .reset → (s.hostAct a).status = .halted cause insn addr) ∧
    (s.hostAct .reset).status = .running

/-- Every step keeps the invariant: memory stays canonical, and a latched fault's address, word and cause agree with
the state it was latched in (R151, R152, R154 (a), with D6, D11, D22; log 6, 10, 19). -/
def Obligations.StepKeepsTheInvariant : Prop := ∀ s t, s.Inv → step s = .next t → t.Inv

/-- The state after reset meets the invariant. -/
def Obligations.ResetMeetsTheInvariant : Prop := State.reset.Inv

/-- R11, R17, R22, R30, R32: no step writes a shadow register, a saved PSR, a byte of memory, or a bit of the CPSR below
the four flags. -/
def Obligations.StepLeavesInertStateAndMemory : Prop :=
  ∀ s t, step s = .next t → t.banks = s.banks ∧ t.spsr = s.spsr ∧ t.mem = s.mem ∧
    (∀ a, Memory.read t.mem a = Memory.read s.mem a) ∧ t.cpsr.extractLsb' 0 28 = s.cpsr.extractLsb' 0 28

/-- R19, R20, R22, and R11, R17 for the banks: a step cannot see the mode, the interrupt masks, the unnamed CPSR bits,
the shadow registers or the saved PSRs: replacing them before a step is replacing them after it. -/
def Obligations.ModeMasksAndBanksAreInvisible : Prop :=
  ∀ (s : State) (k : Word) (b : Banks) (p : SavedPsrs),
    let other := fun s : State =>
      { s with cpsr := (s.cpsr &&& 0xF0000020#32) ||| (k &&& 0x0FFFFFDF#32), banks := b, spsr := p }
    ∀ t, step s = .next t → step (other s) = .next (other t)

/-- R144: a running engine whose word's condition is false ends the step in exactly the state it began in, whatever the
rest of the word is; and so does every instruction whose condition is false. -/
def Obligations.SkippedInstructionChangesNothing : Prop :=
  (∀ s, s.status = .running → s.evaluates s.fetchedWord = some false → step s = .next s) ∧
  (∀ op cond sf rn rd op2 s, s.passes cond = false → exec (.dp op cond sf rn rd op2) s = .next s) ∧
  (∀ insn s, s.evaluates insn = some false →
    exec (.unassignedClass01 insn) s = .next s ∧ exec (.unassignedClass10 insn) s = .next s ∧
    exec (.unassignedClass11 insn) s = .next s ∧ exec (.unassignedShiftBit7 insn) s = .next s)

/-- R62, R53, R151, R154: a word with condition code 15 halts the engine with `ReservedCondition`, the word and the
fetch address, whatever the flags and the other 28 bits, and changes nothing else. The latch and what it records are
the spec's decisions D11, D22 (log 10, 19). -/
def Obligations.ReservedConditionHalts : Prop :=
  (∀ s, s.status = .running → s.fetchedWord.extractLsb' 28 4 = 0b1111#4 →
    step s = .next { s with status := .halted .reservedCondition s.fetchedWord s.fetchAddr }) ∧
  (∀ insn s, exec (.reservedCondition insn) s =
    .next { s with status := .halted .reservedCondition insn s.fetchAddr })

/-- R152, R154, R155: a word whose condition passes and whose class is not 00, or that is the register-shift form with
bit 7 set (D6, log 6), halts the engine with `UnassignedIndex` and changes nothing else; each of the four constructors
does so. The latch and what it records are D11, D22 (log 10, 19). -/
def Obligations.UnassignedIndexHalts : Prop :=
  (∀ s, s.status = .running → s.evaluates s.fetchedWord = some true →
    (s.fetchedWord.extractLsb' 26 2 ≠ 0b00#2 ∨
      (s.fetchedWord.getLsbD 25 = false ∧ s.fetchedWord.getLsbD 4 = true ∧ s.fetchedWord.getLsbD 7 = true)) →
    step s = .next { s with status := .halted .unassignedIndex s.fetchedWord s.fetchAddr }) ∧
  (∀ insn s, s.evaluates insn = some true →
    let halted : State := { s with status := .halted .unassignedIndex insn s.fetchAddr }
    exec (.unassignedClass01 insn) s = .next halted ∧ exec (.unassignedClass10 insn) s = .next halted ∧
    exec (.unassignedClass11 insn) s = .next halted ∧ exec (.unassignedShiftBit7 insn) s = .next halted)

/-- R153 (D22, log 19): the fault interface after a step that faults, and before. -/
def Obligations.FaultInterfaceShowsCodeWordAndAddress : Prop :=
  (∀ s : State, s.status = .running → s.faultCode = 0) ∧
  (∀ s t, s.status = .running → step s = .next t →
    (t.faultCode = 1 ↔ s.evaluates s.fetchedWord = none) ∧
    (t.faultCode = 2 ↔ s.evaluates s.fetchedWord = some true ∧ handlerAt .fault (dispatchIndex s.fetchedWord) = none) ∧
    (t.faultCode ≠ 0 → t.faultInfo = some (s.fetchedWord, s.fetchAddr)))

/-- R146: a step changes register 15 only by executing an instruction whose destination is register 15; after a step
that leaves register 15 alone the next one fetches the same address and the same word. -/
def Obligations.ProgramCounterIsNotAdvanced : Prop :=
  ∀ s t, step s = .next t →
    (t.readReg 15 ≠ s.readReg 15 →
      s.status = .running ∧ ∃ op cond sf rn op2, s.fetchedInstr = .dp op cond sf rn 15 op2 ∧ s.passes cond = true ∧
        op.writesDest = true) ∧
    (t.readReg 15 = s.readReg 15 → t.fetchAddr = s.fetchAddr ∧ t.fetchedWord = s.fetchedWord)

/-- R147, by the spec's decision D23 (log 17): the trace observer is passed a word exactly at a step that executes an
instruction, and it is the word that the step fetched. -/
def Obligations.TracedWordIsTheExecutedOne : Prop :=
  ∀ s : State,
    (∀ w, s.traced = some w → w = s.fetchedWord) ∧
    (s.traced ≠ none ↔ s.status = .running ∧
      ∃ op cond sf rn rd op2, s.fetchedInstr = .dp op cond sf rn rd op2 ∧ s.passes cond = true)

/-- R16: a step changes a bit of the CPSR only by executing an instruction with S = 1, and then only flags, V only in
the arithmetic group; between steps the CPSR changes only by the host's own writes to it and by reset. -/
def Obligations.FlagsChangeOnlyBySetFlagInstructions : Prop :=
  (∀ s t, step s = .next t → t.cpsr ≠ s.cpsr →
    s.status = .running ∧ t.cpsr.extractLsb' 0 28 = s.cpsr.extractLsb' 0 28 ∧
      ∃ op cond rn rd op2, s.fetchedInstr = .dp op cond true rn rd op2 ∧ s.passes cond = true ∧
        (op.isLogical = true → t.psr .V = s.psr .V)) ∧
  (∀ (s : State) i v addr b, (s.hostAct (.writeReg i v)).cpsr = s.cpsr ∧
    (s.hostAct (.writeByte addr b)).cpsr = s.cpsr)

/-- R141: the fetch address is the stored register 15 rounded down to a multiple of 4 with T = 0, of 2 with T = 1, with
no offset; the word there is what the step executes, in a state whose register 15 is as it was stored. -/
def Obligations.FetchAddressIsAligned : Prop :=
  (∀ pc : Word, fetchAddress pc false = pc &&& 0xFFFFFFFC#32 ∧ fetchAddress pc true = pc &&& 0xFFFFFFFE#32 ∧
    (fetchAddress pc false).toNat = pc.toNat / 4 * 4 ∧ (fetchAddress pc true).toNat = pc.toNat / 2 * 2) ∧
  ∀ s : State, s.status = .running →
    step s = exec (decodeWord (Memory.fetchWord s.mem (fetchAddress (s.readReg 15) (s.psr .T)))) s

/-- R5: the next registers, CPSR and status are a function of the registers, the CPSR and the fetched word. That a
faulting step answers next too, with its record, is the model's choice with D11 and D22 (log 10, 19). -/
def Obligations.StepDependsOnlyOnRegistersPsrAndWord : Prop :=
  ∀ s s' : State, s.status = .running → s'.status = .running → s.x = s'.x → s.cpsr = s'.cpsr →
    s.fetchedWord = s'.fetchedWord →
    ∃ t t', step s = .next t ∧ step s' = .next t' ∧ t.x = t'.x ∧ t.cpsr = t'.cpsr ∧ t.status = t'.status

/-! ### The condition evaluator -/

/-- R60 to R62, R64: the evaluator on every code and all flags. That codes 0 to 14 number the conditions in the order
of the list is the spec's own inference (R61, marked derived; log 1). -/
def Obligations.ConditionTruthTable : Prop :=
  ∀ n z c v : Bool,
    (List.range 16).map (fun code => conditionPassed (BitVec.ofNat 4 code) n z c v) =
      [some z, some (!z), some c, some (!c), some n, some (!n), some v, some (!v), some (c && !z), some (!(c && !z)),
        some (n == v), some (!(n == v)), some (!z && (n == v)), some (!(!z && (n == v))), some true, none]

/-! ### The barrel shifter -/

/-- R72: LSL by immediate. The carry-out for amounts 1 to 31 is marked general knowledge in the rule (G12). -/
def Obligations.LslByImmediate : Prop :=
  ∀ (s : State) (rm : Reg),
    let v := s.readOperand rm
    (s.shifterOperand (.shi 0#5 .lsl rm)).value = v ∧ (s.shifterOperand (.shi 0#5 .lsl rm)).carry = s.psr .C ∧
    ∀ n : BitVec 5, n ≠ 0#5 →
      (s.shifterOperand (.shi n .lsl rm)).value.toNat = v.toNat * 2 ^ n.toNat % 2 ^ 32 ∧
      (s.shifterOperand (.shi n .lsl rm)).carry = v.getLsbD (32 - n.toNat)

/-- R73: LSR by immediate; amount 0 means 32. The carry-out for amounts 1 to 31 is marked general knowledge (G12). -/
def Obligations.LsrByImmediate : Prop :=
  ∀ (s : State) (rm : Reg),
    let v := s.readOperand rm
    (s.shifterOperand (.shi 0#5 .lsr rm)).value = 0#32 ∧
    (s.shifterOperand (.shi 0#5 .lsr rm)).carry = v.getLsbD 31 ∧
    ∀ n : BitVec 5, n ≠ 0#5 →
      (s.shifterOperand (.shi n .lsr rm)).value.toNat = v.toNat / 2 ^ n.toNat ∧
      (s.shifterOperand (.shi n .lsr rm)).carry = v.getLsbD (n.toNat - 1)

/-- R74: ASR by immediate; amount 0 means 32, and copies of bit 31 enter at the top. The carry-out for amounts 1 to 31
is marked general knowledge (G12). -/
def Obligations.AsrByImmediate : Prop :=
  ∀ (s : State) (rm : Reg),
    let v := s.readOperand rm
    (s.shifterOperand (.shi 0#5 .asr rm)).value = (if v.getLsbD 31 then 0xFFFFFFFF#32 else 0#32) ∧
    (s.shifterOperand (.shi 0#5 .asr rm)).carry = v.getLsbD 31 ∧
    ∀ n : BitVec 5, n ≠ 0#5 →
      (∀ k < 32, (s.shifterOperand (.shi n .asr rm)).value.getLsbD k = v.getLsbD (min (k + n.toNat) 31)) ∧
      (s.shifterOperand (.shi n .asr rm)).carry = v.getLsbD (n.toNat - 1)

/-- R75: ROR by immediate; the rotation by 32 for amount 0 is the spec's decision D5 (log 5). -/
def Obligations.RorByImmediate : Prop :=
  ∀ (s : State) (rm : Reg),
    let v := s.readOperand rm
    (s.shifterOperand (.shi 0#5 .ror rm)).value = v ∧ (s.shifterOperand (.shi 0#5 .ror rm)).carry = v.getLsbD 31 ∧
    ∀ n : BitVec 5, n ≠ 0#5 →
      (∀ k < 32, (s.shifterOperand (.shi n .ror rm)).value.getLsbD k = v.getLsbD ((k + n.toNat) % 32)) ∧
      (s.shifterOperand (.shi n .ror rm)).carry = v.getLsbD (n.toNat - 1) ∧
      (s.shifterOperand (.shi n .ror rm)).carry = (s.shifterOperand (.shi n .ror rm)).value.getLsbD 31

/-- R76 to R81, R49: the register forms use the amount register modulo 32; amount 0 keeps the operand and the carry for
every type, otherwise the form answers what the immediate form of that amount answers. The zero test on the masked
amount is the spec's decision D4 (log 4). -/
def Obligations.RegisterAmountsUseFiveBits : Prop :=
  ∀ (s : State) (ty : ShiftType) (rm rs : Reg),
    let n := (s.readOperand rs).toNat % 32
    (n = 0 → s.shifterOperand (.shr rs ty rm) = ⟨s.readOperand rm, s.psr .C⟩) ∧
    (n ≠ 0 → s.shifterOperand (.shr rs ty rm) = s.shifterOperand (.shi (BitVec.ofNat 5 n) ty rm))

/-- R82, R50: the rotated immediate, bit by bit, and its carry-out, whose test is on the field `rot`. -/
def Obligations.RotatedImmediateValueAndCarry : Prop :=
  ∀ (s : State) (rot : BitVec 4) (imm8 : BitVec 8),
    (∀ k < 32, (s.shifterOperand (.imm rot imm8)).value.getLsbD k = imm8.getLsbD ((k + 2 * rot.toNat) % 32)) ∧
    (s.shifterOperand (.imm rot imm8)).carry =
      if rot = 0#4 then s.psr .C else (s.shifterOperand (.imm rot imm8)).value.getLsbD 31

/-- R86: the document's testable properties of the shifter. -/
def Obligations.ShifterTestableProperties : Prop :=
  (∀ (s : State) rm, (s.shifterOperand (.shi 0#5 .lsl rm)).carry = s.psr .C) ∧
  (∀ (s : State) rm, s.shifterOperand (.shi 0#5 .lsr rm) = ⟨0#32, (s.readOperand rm).getLsbD 31⟩) ∧
  (∀ (s : State) rm (n : BitVec 5), n ≠ 0#5 → s.readOperand rm = 0x80000000#32 →
    (s.shifterOperand (.shi n .asr rm)).value.getLsbD 31 = true) ∧
  (∀ (s : State) rm, (s.readOperand rm).getLsbD 31 = true →
    (s.shifterOperand (.shi 31#5 .asr rm)).value = 0xFFFFFFFF#32) ∧
  (∀ (s : State) rm, s.readOperand rm = 0xFFFFFFF7#32 →
    (s.shifterOperand (.shi 4#5 .ror rm)).value = 0x7FFFFFFF#32)

/-! ### The adder and the instructions -/

/-- R110: the adder is exact: result, carry and overflow of a sum, and the same three of a subtraction
`p - q - (1 - cin)` computed as `AddWithCarry(p, ~q, cin)`; the overflow output is exact signed overflow. -/
def Obligations.AddWithCarryIsExact : Prop :=
  ∀ (p q : Word) (cin : Bool),
    let sum := addWithCarry p q cin
    let diff := addWithCarry p (~~~q) cin
    let low : Int := -2 ^ 31
    let high : Int := 2 ^ 31 - 1
    let trueSum : Int := p.toInt + q.toInt + cin.toNat
    let trueDiff : Int := p.toInt - q.toInt - (1 - cin.toNat)
    sum.result.toNat = (p.toNat + q.toNat + cin.toNat) % 2 ^ 32 ∧
    (sum.carry = true ↔ 2 ^ 32 ≤ p.toNat + q.toNat + cin.toNat) ∧
    (sum.overflow = true ↔ p.getLsbD 31 = q.getLsbD 31 ∧ sum.result.getLsbD 31 ≠ p.getLsbD 31) ∧
    (sum.overflow = true ↔ trueSum < low ∨ high < trueSum) ∧
    (diff.result.toNat : Int) = ((p.toNat : Int) - q.toNat - (1 - cin.toNat)) % 2 ^ 32 ∧
    (diff.carry = true ↔ q.toNat + Sys2Proof.Claims.borrowIn cin ≤ p.toNat) ∧
    (diff.overflow = true ↔ p.getLsbD 31 ≠ q.getLsbD 31 ∧ diff.result.getLsbD 31 ≠ p.getLsbD 31) ∧
    (diff.overflow = true ↔ trueDiff < low ∨ high < trueDiff)

/-- R120: C after a subtraction is not-borrow: bit 32 of the sum with the complemented subtrahend, and the complement of
bit 32 of the 64-bit difference. -/
def Obligations.CarryOfSubtractionIsNotBorrow : Prop :=
  ∀ (p q : Word) (cin : Bool),
    let carry := (addWithCarry p (~~~q) cin).carry
    let difference : BitVec 64 := p.zeroExtend 64 - q.zeroExtend 64 - BitVec.ofNat 64 (Sys2Proof.Claims.borrowIn cin)
    let sum : BitVec 64 := p.zeroExtend 64 + (~~~q).zeroExtend 64 + (BitVec.ofBool cin).zeroExtend 64
    (carry = true ↔ q.toNat + Sys2Proof.Claims.borrowIn cin ≤ p.toNat) ∧ carry = sum.getLsbD 32 ∧
      carry = !difference.getLsbD 32

/-- R91 to R93, R96: AND, EOR, ORR and MOV, every format and both settings of S; MOV does not read Rn (constructors
andImm, andShi, andShr, eorImm, eorShi, eorShr, orrImm, orrShi, orrShr, movImm, movShi, movShr). -/
def Obligations.LogicalOperationsWriteTheirResult : Prop :=
  (Sys2Proof.Claims.EncodedWith .and 0b0000#4 ∧ Sys2Proof.Claims.LogicalRun .and true fun a b => a &&& b) ∧
  (Sys2Proof.Claims.EncodedWith .eor 0b0001#4 ∧ Sys2Proof.Claims.LogicalRun .eor true fun a b => a ^^^ b) ∧
  (Sys2Proof.Claims.EncodedWith .orr 0b1100#4 ∧ Sys2Proof.Claims.LogicalRun .orr true fun a b => a ||| b) ∧
  (Sys2Proof.Claims.EncodedWith .mov 0b1101#4 ∧ Sys2Proof.Claims.LogicalRun .mov true fun _ b => b)

/-- R94, R95: BIC and MVN, every format and both settings of S; MVN does not read Rn. Their formulas are marked general
knowledge in the rules (G16, log 22) (constructors bicImm, bicShi, bicShr, mvnImm, mvnShi, mvnShr). -/
def Obligations.ComplementingOperationsWriteTheirResult : Prop :=
  (Sys2Proof.Claims.EncodedWith .bic 0b1110#4 ∧ Sys2Proof.Claims.LogicalRun .bic true fun a b => a &&& ~~~b) ∧
  (Sys2Proof.Claims.EncodedWith .mvn 0b1111#4 ∧ Sys2Proof.Claims.LogicalRun .mvn true fun _ b => ~~~b)

/-- R97, R98: TST and TEQ, every format and both settings of S; no register is written (constructors tstImm, tstShi,
tstShr, teqImm, teqShi, teqShr). -/
def Obligations.TestsSetOnlyFlags : Prop :=
  (Sys2Proof.Claims.EncodedWith .tst 0b1000#4 ∧ Sys2Proof.Claims.LogicalRun .tst false fun a b => a &&& b) ∧
  (Sys2Proof.Claims.EncodedWith .teq 0b1001#4 ∧ Sys2Proof.Claims.LogicalRun .teq false fun a b => a ^^^ b)

/-- R112, R113: ADD and ADC, every format and both settings of S (constructors addImm, addShi, addShr, adcImm, adcShi,
adcShr). -/
def Obligations.AdditionsWriteTheSum : Prop :=
  (Sys2Proof.Claims.EncodedWith .add 0b0100#4 ∧ Sys2Proof.Claims.ArithmeticRun .add true (fun a b _ => a + b)
    (fun a b _ => 2 ^ 32 ≤ a.toNat + b.toNat)
    (fun a b _ => a.toInt + b.toInt < -2 ^ 31 ∨ 2 ^ 31 ≤ a.toInt + b.toInt)) ∧
  (Sys2Proof.Claims.EncodedWith .adc 0b0101#4 ∧
    Sys2Proof.Claims.ArithmeticRun .adc true (fun a b c => BitVec.ofNat 32 (a.toNat + b.toNat + c.toNat))
    (fun a b c => 2 ^ 32 ≤ a.toNat + b.toNat + c.toNat)
    (fun a b c => a.msb = b.msb ∧ (BitVec.ofNat 32 (a.toNat + b.toNat + c.toNat)).msb ≠ a.msb))

/-- R114, R115: SUB and SBC, every format and both settings of S (constructors subImm, subShi, subShr, sbcImm, sbcShi,
sbcShr). -/
def Obligations.SubtractionsWriteTheDifference : Prop :=
  (Sys2Proof.Claims.EncodedWith .sub 0b0010#4 ∧ Sys2Proof.Claims.ArithmeticRun .sub true (fun a b _ => a - b)
    (fun a b _ => b.toNat ≤ a.toNat) (fun a b _ => a.msb ≠ b.msb ∧ (a - b).msb ≠ a.msb)) ∧
  (Sys2Proof.Claims.EncodedWith .sbc 0b0110#4 ∧
    Sys2Proof.Claims.ArithmeticRun .sbc true (fun a b c => a - b - BitVec.ofNat 32 (Sys2Proof.Claims.borrowIn c))
    (fun a b c => b.toNat + Sys2Proof.Claims.borrowIn c ≤ a.toNat)
    (fun a b c => a.msb ≠ b.msb ∧ (a - b - BitVec.ofNat 32 (Sys2Proof.Claims.borrowIn c)).msb ≠ a.msb))

/-- R116, R117: RSB and RSC, every format and both settings of S. That V compares with the minuend, operand 2, is the
spec's decision D7 (log 7) (constructors rsbImm, rsbShi, rsbShr, rscImm, rscShi, rscShr). -/
def Obligations.ReverseSubtractionsWriteTheDifference : Prop :=
  (Sys2Proof.Claims.EncodedWith .rsb 0b0011#4 ∧ Sys2Proof.Claims.ArithmeticRun .rsb true (fun a b _ => b - a)
    (fun a b _ => a.toNat ≤ b.toNat) (fun a b _ => b.msb ≠ a.msb ∧ (b - a).msb ≠ b.msb)) ∧
  (Sys2Proof.Claims.EncodedWith .rsc 0b0111#4 ∧
    Sys2Proof.Claims.ArithmeticRun .rsc true (fun a b c => b - a - BitVec.ofNat 32 (Sys2Proof.Claims.borrowIn c))
    (fun a b c => a.toNat + Sys2Proof.Claims.borrowIn c ≤ b.toNat)
    (fun a b c => b.msb ≠ a.msb ∧ (b - a - BitVec.ofNat 32 (Sys2Proof.Claims.borrowIn c)).msb ≠ b.msb))

/-- R118: CMP, every format and both settings of S; no register is written, and after CMP with S = 1 the conditions read
as the unsigned and signed order of the operands, also where the difference overflows (constructors cmpImm, cmpShi,
cmpShr). -/
def Obligations.CompareOrdersItsOperands : Prop :=
  Sys2Proof.Claims.EncodedWith .cmp 0b1010#4 ∧
  Sys2Proof.Claims.ArithmeticRun .cmp false (fun a b _ => a - b) (fun a b _ => b.toNat ≤ a.toNat)
    (fun a b _ => a.msb ≠ b.msb ∧ (a - b).msb ≠ a.msb) ∧
  ∀ cond rn rd op2 (s : State), s.passes cond = true →
    let a := s.readOperand rn
    let b := (s.shifterOperand op2).value
    ∃ t, exec (.dp .cmp cond true rn rd op2) s = .next t ∧
      (t.passes .eq = true ↔ a = b) ∧ (t.passes .cs = true ↔ b.toNat ≤ a.toNat) ∧
      (t.passes .hi = true ↔ b.toNat < a.toNat) ∧ (t.passes .ge = true ↔ b.toInt ≤ a.toInt) ∧
      (t.passes .gt = true ↔ b.toInt < a.toInt) ∧ (t.passes .lt = true ↔ a.toInt < b.toInt) ∧
      (t.passes .le = true ↔ a.toInt ≤ b.toInt)

/-- R119: CMN, every format and both settings of S; no register is written. That it adds is marked general knowledge in
the rule (G16) (constructors cmnImm, cmnShi, cmnShr). -/
def Obligations.CompareNegativeAdds : Prop :=
  Sys2Proof.Claims.EncodedWith .cmn 0b1011#4 ∧
  Sys2Proof.Claims.ArithmeticRun .cmn false (fun a b _ => a + b) (fun a b _ => 2 ^ 32 ≤ a.toNat + b.toNat)
    (fun a b _ => a.toInt + b.toInt < -2 ^ 31 ∨ 2 ^ 31 ≤ a.toInt + b.toInt)

/-- R100: the four comparisons never modify a register, and TST and TEQ with S = 0 change nothing at all; R56 says the
same of CMP and CMN with S = 0, by the spec's decision D15 (log 14). -/
def Obligations.ComparisonsWithoutFlagSettingDoNothing : Prop :=
  ∀ op cond sf rn rd op2 s, op.writesDest = false →
    (∃ t, exec (.dp op cond sf rn rd op2) s = .next t ∧ Sys2Proof.Claims.NoRegister s t) ∧
    exec (.dp op cond false rn rd op2) s = .next s

/-- R55, by the spec's decision D16 (log 15): the Rn field of MOV and MVN and the Rd field of the comparisons are
ignored, whatever they hold. -/
def Obligations.UnusedRegisterFieldsAreIgnored : Prop :=
  (∀ op cond sf rn rn' rd op2 s, op = .mov ∨ op = .mvn →
    exec (.dp op cond sf rn rd op2) s = exec (.dp op cond sf rn' rd op2) s) ∧
  (∀ op cond sf rn rd rd' op2 s, op.writesDest = false →
    exec (.dp op cond sf rn rd op2) s = exec (.dp op cond sf rn rd' op2) s)

/-- R122: the document's testable properties of the arithmetic group, for every choice of registers, and the last one
for all four comparisons. -/
def Obligations.ArithmeticTestableProperties : Prop :=
  (∀ rd rn rm (s : State), s.readOperand rn = 0x00000001#32 → s.readOperand rm = 0x00000002#32 →
    ∃ t, exec (.subShi .al true rn rd 0#5 .lsl rm) s = .next t ∧
      t.psr .N = true ∧ t.psr .C = false ∧ t.psr .V = false) ∧
  (∀ rd rn rm (s : State), s.readOperand rn = 0x7FFFFFFF#32 → s.readOperand rm = 0xFFFFFFFF#32 →
    ∃ t, exec (.subShi .al true rn rd 0#5 .lsl rm) s = .next t ∧ t.psr .V = true) ∧
  (∀ rd rn rm (s : State), s.readOperand rn = 0x7FFFFFFF#32 → s.readOperand rm = 0x00000001#32 →
    ∃ t, exec (.addShi .al true rn rd 0#5 .lsl rm) s = .next t ∧ t.psr .V = true ∧ t.psr .C = false) ∧
  (∀ rd rn rm (s : State), s.readOperand rn = 0xFFFFFFFF#32 → s.readOperand rm = 0x00000001#32 →
    ∃ t, exec (.addShi .al true rn rd 0#5 .lsl rm) s = .next t ∧ Sys2Proof.Claims.Flags t false true true false) ∧
  (∀ op cond sf rn rd op2 s, op.writesDest = false →
    ∃ t, exec (.dp op cond sf rn rd op2) s = .next t ∧ Sys2Proof.Claims.NoRegister s t)

/-- R101: the document's testable properties of the logical group, read as the rule reads them (C and V kept), and its
end-to-end scenario. -/
def Obligations.LogicalTestableProperties : Prop :=
  (∀ rd rm (s : State), s.readOperand rm = 0#32 →
    ∃ t, exec (.andShi .al true rm rd 0#5 .lsl rm) s = .next t ∧
      Sys2Proof.Claims.Flags t false true (s.psr .C) (s.psr .V)) ∧
  (∀ rd rm (s : State), s.readOperand rm = 0xFFFFFFFF#32 →
    ∃ t, exec (.andShi .al true rm rd 0#5 .lsl rm) s = .next t ∧
      Sys2Proof.Claims.Flags t true false (s.psr .C) (s.psr .V)) ∧
  (∀ s : State, s.readReg 1 = 1#32 → s.readReg 8 = 0xFFFFFFFF#32 → s.psr .V = false →
    ∃ t, exec (.andShi .al true 8 0 0#5 .lsr 8) s = .next t ∧ t.readReg 0 = 0#32 ∧
      Sys2Proof.Claims.Flags t false true true false) ∧
  (∀ op cond sf rn rd op2 s, op.writesDest = false →
    ∃ t, exec (.dp op cond sf rn rd op2) s = .next t ∧ Sys2Proof.Claims.NoRegister s t)

/-- R12 (d), R84, R99, by the spec's decisions D9 and D10 (log 8, 9): as an operand register 15 reads its stored value,
and as a destination it takes the whole result: a MOV of register 15 copies it, and a MOV to register 15 stores all 32
bits and copies no saved PSR. -/
def Obligations.ProgramCounterIsAnOrdinaryOperand : Prop :=
  (∀ (s : State) i, s.readOperand i = s.readReg i) ∧
  (∀ cond sf rn rd (s : State), s.passes cond = true →
    ∃ t, exec (.movShi cond sf rn rd 0#5 .lsl 15) s = .next t ∧ t.readReg rd = s.readReg 15) ∧
  (∀ cond sf rn rm (s : State), s.passes cond = true →
    ∃ t, exec (.movShi cond sf rn 15 0#5 .lsl rm) s = .next t ∧ t.readReg 15 = s.readReg rm ∧
      t.cpsr.extractLsb' 0 28 = s.cpsr.extractLsb' 0 28)

/-! ### The status register, reset, memory, the host -/

/-- R15: a flag write changes the top four bits alone, a write of one field changes that field alone. -/
def Obligations.PsrFieldWritesAreIndependent : Prop :=
  ∀ p : Word,
    (∀ n z c v, let q := Psr.writeNzcv p n z c v
      q.extractLsb' 0 28 = p.extractLsb' 0 28 ∧ Psr.readBit q .N = n ∧ Psr.readBit q .Z = z ∧
        Psr.readBit q .C = c ∧ Psr.readBit q .V = v) ∧
    (∀ b v, let q := Psr.writeBit p b v
      Psr.readBit q b = v ∧ ∀ k, k ≠ b.pos → q.getLsbD k = p.getLsbD k) ∧
    (∀ m, let q := Psr.writeMode p m
      Psr.readMode q = m ∧ ∀ k, 5 ≤ k → q.getLsbD k = p.getLsbD k)

/-- R14: the raw word and the field views are one storage: a raw write stores every bit as given and is read back, a
write of a named field is read back by that field, and two words with equal fields and equal unnamed bits are the same
word. -/
def Obligations.PsrFieldsAndRawWordAgree : Prop :=
  (∀ (s : State) w, (s.hostAct (.writeCpsr w)).cpsr = w ∧ ∀ b, (s.hostAct (.writeCpsr w)).psr b = Psr.readBit w b) ∧
  (∀ (s : State) b v, (s.hostAct (.writePsrBit b v)).psr b = v) ∧
  (∀ (s : State) m, Psr.readMode (s.hostAct (.writeMode m)).cpsr = m) ∧
  (∀ p q : Word, (∀ b, Psr.readBit p b = Psr.readBit q b) → Psr.readMode p = Psr.readMode q →
    Psr.unnamed p = Psr.unnamed q → p = q)

/-- R25: after reset, at power-on and whenever the host raises it, every general register is 0. -/
def Obligations.ResetClearsTheGeneralRegisters : Prop :=
  ∀ i : Reg, State.reset.readReg i = 0#32 ∧ ∀ s : State, (s.hostAct .reset).readReg i = 0#32

/-- R26, R27, R28, R170, R171, by the spec's decisions D2, D3, D11 (log 2, 3, 10): what reset leaves beside the general
registers, from every state; memory is kept. -/
def Obligations.ResetSetsThePsrAndTheStatus : Prop :=
  ∀ s : State,
    let t := s.hostAct .reset
    t.cpsr = 0x000000D3#32 ∧ Psr.readMode t.cpsr = 0b10011#5 ∧ t.psr .I = true ∧ t.psr .F = true ∧ t.psr .T = false ∧
    Sys2Proof.Claims.Flags t false false false false ∧ Psr.unnamed t.cpsr = 0#20 ∧ t.status = .running ∧
    t.banks = Banks.reset ∧ t.spsr = SavedPsrs.reset ∧ t.mem = s.mem ∧ t.fetchAddr = 0#32 ∧
    { t with mem := [] } = State.reset

/-- Two memories in the canonical form that read alike at every address are the same data (log 16: the model's form of
20_memory.md R30, R33). -/
def Obligations.CanonicalMemoriesReadingAlikeAreEqual : Prop :=
  ∀ m m' : List Host.Cell, Memory.wf m = true → Memory.wf m' = true →
    (∀ a, Memory.read m a = Memory.read m' a) → m = m'

/-- A word placed at the fetch, in any state whose memory is canonical, is what the next step fetches, decodes and runs;
memory stays canonical and every byte outside the four is kept (log 11, 18). -/
def Obligations.PlacedWordIsFetchedAndRun : Prop :=
  ∀ (s : State) (w : Nat), Memory.wf s.mem = true →
    let t := s.withFetchWord 32 w
    t.fetchedWord = BitVec.ofNat 32 w ∧ step t = exec (decodeWord (BitVec.ofNat 32 w)) t ∧ Memory.wf t.mem = true ∧
    (∀ a, (a < t.fetchAddr.toNat ∨ t.fetchAddr.toNat + 4 ≤ a) → Memory.read t.mem a = Memory.read s.mem a)

/-- R149, by the spec's decisions D12 and D21 (log 11): under the reference host register 15 gains 4 after a step that
did not fault and nothing after one that did; a word written to register 15 makes the next fetch 4 above it. -/
def Obligations.ReferenceHostAdvancesByFour : Prop :=
  ∀ s t : State, step s = .next t →
    (t.status = .running → stepUnder State.hostAdvance s = .next (t.writeReg 15 (t.readReg 15 + 4#32)) ∧
      (t.psr .T = false →
        (t.writeReg 15 (t.readReg 15 + 4#32)).fetchAddr = (t.readReg 15 + 4#32) &&& 0xFFFFFFFC#32)) ∧
    (t.status ≠ .running → stepUnder State.hostAdvance s = .next t)
end

