-- ==== Sys2Proof/Laws/Encoding.lean ====
section
/-! SUPPORT. Codes and their names, and what stands in each bit of an encoded data-processing instruction. -/

namespace Sys2Proof

@[simp] theorem Cond.ofCode_code (c : Cond) : Cond.ofCode c.code = some c := by cases c <;> rfl
@[simp] theorem ShiftType.ofCode_code (t : ShiftType) : ShiftType.ofCode t.code = t := by cases t <;> rfl
@[simp] theorem AluOp.ofCode_code (op : AluOp) : AluOp.ofCode op.code = op := by cases op <;> rfl
@[simp] theorem ShiftType.code_ofCode : ∀ c : BitVec 2, (ShiftType.ofCode c).code = c := by decide
@[simp] theorem AluOp.code_ofCode : ∀ c : BitVec 4, (AluOp.ofCode c).code = c := by decide

/-- A code has no condition exactly when it is the reserved one. -/
theorem Cond.ofCode_eq_none : ∀ c : BitVec 4, Cond.ofCode c = none ↔ c = 0b1111#4 := by decide

/-- A code whose condition is `cond` is the code of `cond`. -/
theorem Cond.code_of_ofCode : ∀ c : BitVec 4, ∀ cond, Cond.ofCode c = some cond → cond.code = c := by
  intro c cond
  revert c
  cases cond <;> decide

/-- Every bit of the word of a data-processing instruction (30_encoding.md R41, R59). -/
theorem encodeDp_getLsbD (op : AluOp) (cond : Cond) (sf : Bool) (rn rd : Reg) (o : Operand2) (k : Nat) :
    (encodeDp op cond sf rn rd o).getLsbD k =
      if k < 12 then o.bits.getLsbD k
      else if k < 16 then (BitVec.ofFin (w := 4) rd).getLsbD (k - 12)
      else if k < 20 then (BitVec.ofFin (w := 4) rn).getLsbD (k - 16)
      else if k = 20 then sf
      else if k < 25 then op.code.getLsbD (k - 21)
      else if k = 25 then o.isImm
      else if k < 28 then false
      else cond.code.getLsbD (k - 28) := by
  show BitVec.getLsbD (w := 4 + 2 + 1 + 4 + 1 + 4 + 4 + 12) _ k = _
  unfold encodeDp
  simp only [BitVec.getLsbD_append, BitVec.getLsbD_ofBool, BitVec.getLsbD_zero]
  repeat' split
  all_goals first | rfl | (exfalso; omega) | skip
  all_goals (simp; omega)

/-- The word of a data-processing instruction is the word of its fields. -/
theorem encode_dp (op : AluOp) (cond : Cond) (sf : Bool) (rn rd : Reg) (o : Operand2) :
    encode (.dp op cond sf rn rd o) = encodeDp op cond sf rn rd o := by
  cases o <;> cases op <;> rfl

/-- Every data-processing instruction is well-formed. -/
@[simp] theorem wellFormed_dp (op : AluOp) (cond : Cond) (sf : Bool) (rn rd : Reg) (o : Operand2) :
    (Instr.dp op cond sf rn rd o).wellFormed = true := by
  cases o <;> cases op <;> rfl

end Sys2Proof
end

