-- ==== Sys2Proof/Laws/State.lean ====
section
/-! SUPPORT. What each update of a state does to each field, so that no proof unfolds a record update, and what the
reads see after the writes. -/

namespace Sys2Proof.Machine

section Fields
variable (s : State) (i : Reg) (v : Word) (dest : Option Reg) (n c o : Bool) (cause : DecodeFault) (insn : Word)

@[simp] theorem State.writeReg_cpsr : (s.writeReg i v).cpsr = s.cpsr := rfl
@[simp] theorem State.writeReg_banks : (s.writeReg i v).banks = s.banks := rfl
@[simp] theorem State.writeReg_spsr : (s.writeReg i v).spsr = s.spsr := rfl
@[simp] theorem State.writeReg_status : (s.writeReg i v).status = s.status := rfl
@[simp] theorem State.writeReg_mem : (s.writeReg i v).mem = s.mem := rfl
@[simp] theorem State.writeReg_psr (b : PsrBit) : (s.writeReg i v).psr b = s.psr b := rfl

@[simp] theorem State.writeDest_none : s.writeDest none v = s := rfl
@[simp] theorem State.writeDest_some : s.writeDest (some i) v = s.writeReg i v := rfl
@[simp] theorem State.writeDest_cpsr : (s.writeDest dest v).cpsr = s.cpsr := by cases dest <;> rfl
@[simp] theorem State.writeDest_banks : (s.writeDest dest v).banks = s.banks := by cases dest <;> rfl
@[simp] theorem State.writeDest_spsr : (s.writeDest dest v).spsr = s.spsr := by cases dest <;> rfl
@[simp] theorem State.writeDest_status : (s.writeDest dest v).status = s.status := by cases dest <;> rfl
@[simp] theorem State.writeDest_mem : (s.writeDest dest v).mem = s.mem := by cases dest <;> rfl

@[simp] theorem State.setFlags_x : (s.setFlags v c o).x = s.x := rfl
@[simp] theorem State.setFlags_cpsr :
    (s.setFlags v c o).cpsr = Psr.writeNzcv s.cpsr v.msb (v == 0#32) c o := rfl
@[simp] theorem State.setFlags_banks : (s.setFlags v c o).banks = s.banks := rfl
@[simp] theorem State.setFlags_spsr : (s.setFlags v c o).spsr = s.spsr := rfl
@[simp] theorem State.setFlags_status : (s.setFlags v c o).status = s.status := rfl
@[simp] theorem State.setFlags_mem : (s.setFlags v c o).mem = s.mem := rfl
@[simp] theorem State.setFlags_readReg (j : Reg) : (s.setFlags v c o).readReg j = s.readReg j := rfl

@[simp] theorem State.raiseDecodeFault_x : (s.raiseDecodeFault cause insn).x = s.x := rfl
@[simp] theorem State.raiseDecodeFault_cpsr : (s.raiseDecodeFault cause insn).cpsr = s.cpsr := rfl
@[simp] theorem State.raiseDecodeFault_banks : (s.raiseDecodeFault cause insn).banks = s.banks := rfl
@[simp] theorem State.raiseDecodeFault_spsr : (s.raiseDecodeFault cause insn).spsr = s.spsr := rfl
@[simp] theorem State.raiseDecodeFault_mem : (s.raiseDecodeFault cause insn).mem = s.mem := rfl
@[simp] theorem State.raiseDecodeFault_status :
    (s.raiseDecodeFault cause insn).status = .halted cause insn s.fetchAddr := rfl
@[simp] theorem State.raiseDecodeFault_readReg (j : Reg) :
    (s.raiseDecodeFault cause insn).readReg j = s.readReg j := rfl

end Fields

@[simp] theorem State.readReg_writeReg_self (s : State) (i : Reg) (v : Word) : (s.writeReg i v).readReg i = v := by
  simp [State.readReg, State.writeReg]

theorem State.readReg_writeReg_ne (s : State) (i j : Reg) (v : Word) (h : j ≠ i) :
    (s.writeReg i v).readReg j = s.readReg j := by
  have : (i : Nat) ≠ j := fun e => h (Fin.ext e.symm)
  simp [State.readReg, State.writeReg, this]

/-- An operand read is the stored value, for register 15 too (R12 (d); R15_READ_OFFSET = 0). -/
theorem State.readOperand_eq (s : State) (i : Reg) : s.readOperand i = s.readReg i := by
  simp [State.readOperand, Config.r15ReadOffset]

end Sys2Proof.Machine
end

