-- ==== Sys2Proof/Laws/Psr.lean ====
section
/-! SUPPORT. What the writes of the status register leave in each bit. -/

namespace Sys2Proof.Machine

/-- Every bit of a CPSR after a flag write. -/
theorem Psr.writeNzcv_getLsbD (p : Word) (n z c v : Bool) (k : Nat) : (Psr.writeNzcv p n z c v).getLsbD k =
    if k < 28 then p.getLsbD k
    else if k = 28 then v else if k = 29 then c else if k = 30 then z else if k = 31 then n else false := by
  show BitVec.getLsbD (w := 1 + 1 + 1 + 1 + 28) _ k = _
  unfold Psr.writeNzcv
  simp only [BitVec.getLsbD_append, BitVec.getLsbD_ofBool, BitVec.getLsbD_extractLsb']
  repeat' split
  all_goals first | rfl | (exfalso; omega) | skip
  all_goals simp
  all_goals omega

section
variable (s : State) (r : Word) (c v : Bool)

@[simp] theorem State.setFlags_N : (s.setFlags r c v).psr .N = r.msb := by
  exact Psr.writeNzcv_getLsbD ..

@[simp] theorem State.setFlags_Z : (s.setFlags r c v).psr .Z = (r == 0#32) := by
  exact Psr.writeNzcv_getLsbD ..

@[simp] theorem State.setFlags_C : (s.setFlags r c v).psr .C = c := by
  exact Psr.writeNzcv_getLsbD ..

@[simp] theorem State.setFlags_V : (s.setFlags r c v).psr .V = v := by
  exact Psr.writeNzcv_getLsbD ..

end

/-- A flag write keeps bits 27:0 (10_state.md R15 (a)). -/
theorem Psr.writeNzcv_low (p : Word) (n z c v : Bool) :
    (Psr.writeNzcv p n z c v).extractLsb' 0 28 = p.extractLsb' 0 28 := by
  ext i hi
  simp [BitVec.getElem_extractLsb', Psr.writeNzcv_getLsbD, hi]

end Sys2Proof.Machine
end

