-- ==== Sys2Proof/Laws/Exec.lean ====
section
/-! SUPPORT. What each shared operation can do, said once: conditional execution, the two group effects, the unassigned
rows, and the instruction of given fields. -/

namespace Sys2Proof.Machine

theorem conditionally_pass {cond : Cond} {s : State} (h : s.passes cond = true) (effect : State → State) :
    conditionally cond effect s = effect s := by simp [conditionally, h]

theorem conditionally_fail {cond : Cond} {s : State} (h : s.passes cond = false) (effect : State → State) :
    conditionally cond effect s = s := by simp [conditionally, h]

/-- Every data-processing instruction is its operation's effect under its condition. -/
theorem exec_dp (op : AluOp) (cond : Cond) (sf : Bool) (rn rd : Reg) (op2 : Operand2) (s : State) :
    exec (.dp op cond sf rn rd op2) s = .next (conditionally cond (aluEffect op sf rn rd op2) s) := by
  cases op2 <;> cases op <;> rfl

/-- Every instruction is a data-processing instruction of some fields or one of the five faulting rows. -/
theorem instr_cases (i : Instr) :
    (∃ op cond sf rn rd op2, i = .dp op cond sf rn rd op2) ∨ (∃ insn, i = .reservedCondition insn) ∨
      (∃ insn, i = .unassignedClass01 insn ∨ i = .unassignedClass10 insn ∨ i = .unassignedClass11 insn ∨
        i = .unassignedShiftBit7 insn) := by
  cases i
  case reservedCondition insn => exact .inr (.inl ⟨insn, rfl⟩)
  case unassignedClass01 insn => exact .inr (.inr ⟨insn, .inl rfl⟩)
  case unassignedClass10 insn => exact .inr (.inr ⟨insn, .inr (.inl rfl)⟩)
  case unassignedClass11 insn => exact .inr (.inr ⟨insn, .inr (.inr (.inl rfl))⟩)
  case unassignedShiftBit7 insn => exact .inr (.inr ⟨insn, .inr (.inr (.inr rfl))⟩)
  case andImm cond sf rn rd rot imm8 => exact .inl ⟨.and, cond, sf, rn, rd, .imm rot imm8, rfl⟩
  case andShi cond sf rn rd shamt ty rm => exact .inl ⟨.and, cond, sf, rn, rd, .shi shamt ty rm, rfl⟩
  case andShr cond sf rn rd rs ty rm => exact .inl ⟨.and, cond, sf, rn, rd, .shr rs ty rm, rfl⟩
  case eorImm cond sf rn rd rot imm8 => exact .inl ⟨.eor, cond, sf, rn, rd, .imm rot imm8, rfl⟩
  case eorShi cond sf rn rd shamt ty rm => exact .inl ⟨.eor, cond, sf, rn, rd, .shi shamt ty rm, rfl⟩
  case eorShr cond sf rn rd rs ty rm => exact .inl ⟨.eor, cond, sf, rn, rd, .shr rs ty rm, rfl⟩
  case subImm cond sf rn rd rot imm8 => exact .inl ⟨.sub, cond, sf, rn, rd, .imm rot imm8, rfl⟩
  case subShi cond sf rn rd shamt ty rm => exact .inl ⟨.sub, cond, sf, rn, rd, .shi shamt ty rm, rfl⟩
  case subShr cond sf rn rd rs ty rm => exact .inl ⟨.sub, cond, sf, rn, rd, .shr rs ty rm, rfl⟩
  case rsbImm cond sf rn rd rot imm8 => exact .inl ⟨.rsb, cond, sf, rn, rd, .imm rot imm8, rfl⟩
  case rsbShi cond sf rn rd shamt ty rm => exact .inl ⟨.rsb, cond, sf, rn, rd, .shi shamt ty rm, rfl⟩
  case rsbShr cond sf rn rd rs ty rm => exact .inl ⟨.rsb, cond, sf, rn, rd, .shr rs ty rm, rfl⟩
  case addImm cond sf rn rd rot imm8 => exact .inl ⟨.add, cond, sf, rn, rd, .imm rot imm8, rfl⟩
  case addShi cond sf rn rd shamt ty rm => exact .inl ⟨.add, cond, sf, rn, rd, .shi shamt ty rm, rfl⟩
  case addShr cond sf rn rd rs ty rm => exact .inl ⟨.add, cond, sf, rn, rd, .shr rs ty rm, rfl⟩
  case adcImm cond sf rn rd rot imm8 => exact .inl ⟨.adc, cond, sf, rn, rd, .imm rot imm8, rfl⟩
  case adcShi cond sf rn rd shamt ty rm => exact .inl ⟨.adc, cond, sf, rn, rd, .shi shamt ty rm, rfl⟩
  case adcShr cond sf rn rd rs ty rm => exact .inl ⟨.adc, cond, sf, rn, rd, .shr rs ty rm, rfl⟩
  case sbcImm cond sf rn rd rot imm8 => exact .inl ⟨.sbc, cond, sf, rn, rd, .imm rot imm8, rfl⟩
  case sbcShi cond sf rn rd shamt ty rm => exact .inl ⟨.sbc, cond, sf, rn, rd, .shi shamt ty rm, rfl⟩
  case sbcShr cond sf rn rd rs ty rm => exact .inl ⟨.sbc, cond, sf, rn, rd, .shr rs ty rm, rfl⟩
  case rscImm cond sf rn rd rot imm8 => exact .inl ⟨.rsc, cond, sf, rn, rd, .imm rot imm8, rfl⟩
  case rscShi cond sf rn rd shamt ty rm => exact .inl ⟨.rsc, cond, sf, rn, rd, .shi shamt ty rm, rfl⟩
  case rscShr cond sf rn rd rs ty rm => exact .inl ⟨.rsc, cond, sf, rn, rd, .shr rs ty rm, rfl⟩
  case tstImm cond sf rn rd rot imm8 => exact .inl ⟨.tst, cond, sf, rn, rd, .imm rot imm8, rfl⟩
  case tstShi cond sf rn rd shamt ty rm => exact .inl ⟨.tst, cond, sf, rn, rd, .shi shamt ty rm, rfl⟩
  case tstShr cond sf rn rd rs ty rm => exact .inl ⟨.tst, cond, sf, rn, rd, .shr rs ty rm, rfl⟩
  case teqImm cond sf rn rd rot imm8 => exact .inl ⟨.teq, cond, sf, rn, rd, .imm rot imm8, rfl⟩
  case teqShi cond sf rn rd shamt ty rm => exact .inl ⟨.teq, cond, sf, rn, rd, .shi shamt ty rm, rfl⟩
  case teqShr cond sf rn rd rs ty rm => exact .inl ⟨.teq, cond, sf, rn, rd, .shr rs ty rm, rfl⟩
  case cmpImm cond sf rn rd rot imm8 => exact .inl ⟨.cmp, cond, sf, rn, rd, .imm rot imm8, rfl⟩
  case cmpShi cond sf rn rd shamt ty rm => exact .inl ⟨.cmp, cond, sf, rn, rd, .shi shamt ty rm, rfl⟩
  case cmpShr cond sf rn rd rs ty rm => exact .inl ⟨.cmp, cond, sf, rn, rd, .shr rs ty rm, rfl⟩
  case cmnImm cond sf rn rd rot imm8 => exact .inl ⟨.cmn, cond, sf, rn, rd, .imm rot imm8, rfl⟩
  case cmnShi cond sf rn rd shamt ty rm => exact .inl ⟨.cmn, cond, sf, rn, rd, .shi shamt ty rm, rfl⟩
  case cmnShr cond sf rn rd rs ty rm => exact .inl ⟨.cmn, cond, sf, rn, rd, .shr rs ty rm, rfl⟩
  case orrImm cond sf rn rd rot imm8 => exact .inl ⟨.orr, cond, sf, rn, rd, .imm rot imm8, rfl⟩
  case orrShi cond sf rn rd shamt ty rm => exact .inl ⟨.orr, cond, sf, rn, rd, .shi shamt ty rm, rfl⟩
  case orrShr cond sf rn rd rs ty rm => exact .inl ⟨.orr, cond, sf, rn, rd, .shr rs ty rm, rfl⟩
  case movImm cond sf rn rd rot imm8 => exact .inl ⟨.mov, cond, sf, rn, rd, .imm rot imm8, rfl⟩
  case movShi cond sf rn rd shamt ty rm => exact .inl ⟨.mov, cond, sf, rn, rd, .shi shamt ty rm, rfl⟩
  case movShr cond sf rn rd rs ty rm => exact .inl ⟨.mov, cond, sf, rn, rd, .shr rs ty rm, rfl⟩
  case bicImm cond sf rn rd rot imm8 => exact .inl ⟨.bic, cond, sf, rn, rd, .imm rot imm8, rfl⟩
  case bicShi cond sf rn rd shamt ty rm => exact .inl ⟨.bic, cond, sf, rn, rd, .shi shamt ty rm, rfl⟩
  case bicShr cond sf rn rd rs ty rm => exact .inl ⟨.bic, cond, sf, rn, rd, .shr rs ty rm, rfl⟩
  case mvnImm cond sf rn rd rot imm8 => exact .inl ⟨.mvn, cond, sf, rn, rd, .imm rot imm8, rfl⟩
  case mvnShi cond sf rn rd shamt ty rm => exact .inl ⟨.mvn, cond, sf, rn, rd, .shi shamt ty rm, rfl⟩
  case mvnShr cond sf rn rd rs ty rm => exact .inl ⟨.mvn, cond, sf, rn, rd, .shr rs ty rm, rfl⟩

/-- What an effect of the logical group leaves: the frame, and the CPSR as it was where S = 0. -/
theorem logicalEffect_frame (f : Word → Word → Word) (sf : Bool) (rn : Reg) (dest : Option Reg) (op2 : Operand2)
    (s : State) :
    let t := logicalEffect f sf rn dest op2 s
    t.banks = s.banks ∧ t.spsr = s.spsr ∧ t.status = s.status ∧ t.mem = s.mem ∧
      t.cpsr.extractLsb' 0 28 = s.cpsr.extractLsb' 0 28 ∧ (sf = false → t.cpsr = s.cpsr) := by
  cases sf <;> simp [logicalEffect, Psr.writeNzcv_low]

/-- What an effect of the arithmetic group leaves: the frame, and the CPSR as it was where S = 0. -/
theorem arithmeticEffect_frame (g : Word → Word → Bool → Sum) (sf : Bool) (rn : Reg) (dest : Option Reg)
    (op2 : Operand2) (s : State) :
    let t := arithmeticEffect g sf rn dest op2 s
    t.banks = s.banks ∧ t.spsr = s.spsr ∧ t.status = s.status ∧ t.mem = s.mem ∧
      t.cpsr.extractLsb' 0 28 = s.cpsr.extractLsb' 0 28 ∧ (sf = false → t.cpsr = s.cpsr) := by
  cases sf <;> simp [arithmeticEffect, Psr.writeNzcv_low]

/-- What an effect of the logical group does to the registers and, where S = 1, to the flags. -/
theorem logicalEffect_result (f : Word → Word → Word) (sf : Bool) (rn : Reg) (dest : Option Reg) (op2 : Operand2)
    (s : State) :
    let r := f (s.readOperand rn) (s.shifterOperand op2).value
    let t := logicalEffect f sf rn dest op2 s
    (∀ j, t.readReg j = (s.writeDest dest r).readReg j) ∧
      (sf = true → t.psr .N = r.msb ∧ t.psr .Z = (r == 0#32) ∧ t.psr .C = (s.shifterOperand op2).carry ∧
        t.psr .V = s.psr .V) := by
  cases sf <;> simp [logicalEffect]

/-- What an effect of the arithmetic group does to the registers and, where S = 1, to the flags. -/
theorem arithmeticEffect_result (g : Word → Word → Bool → Sum) (sf : Bool) (rn : Reg) (dest : Option Reg)
    (op2 : Operand2) (s : State) :
    let sum := g (s.readOperand rn) (s.shifterOperand op2).value (s.psr .C)
    let t := arithmeticEffect g sf rn dest op2 s
    (∀ j, t.readReg j = (s.writeDest dest sum.result).readReg j) ∧
      (sf = true → t.psr .N = sum.result.msb ∧ t.psr .Z = (sum.result == 0#32) ∧ t.psr .C = sum.carry ∧
        t.psr .V = sum.overflow) := by
  cases sf <;> simp [arithmeticEffect]

/-- An unassigned row skips, or raises one of the two faults. -/
theorem unassignedEffect_cases (insn : Word) (s : State) :
    (s.evaluates insn = some false ∧ unassignedEffect insn s = s) ∨
      (s.evaluates insn = some true ∧ unassignedEffect insn s = s.raiseDecodeFault .unassignedIndex insn) ∨
      (s.evaluates insn = none ∧ unassignedEffect insn s = s.raiseDecodeFault .reservedCondition insn) := by
  unfold unassignedEffect
  split <;> simp_all

/-- A step of a running engine. -/
theorem step_running {s : State} (h : s.status = .running) : step s = exec s.fetchedInstr s := by
  unfold step
  rw [h]

/-- A step of a halted engine. -/
theorem step_halted {s : State} {cause : DecodeFault} {insn addr : Word} (h : s.status = .halted cause insn addr) :
    step s = .next s := by
  unfold step
  rw [h]

end Sys2Proof.Machine
end

