-- ==== Sys2Proof/Laws/Memory.lean ====
section
/-! SUPPORT. The laws of memory: a read after a write, and that every operation keeps the canonical form. -/

namespace Sys2Proof.Machine.Memory

theorem read_of_lt (m : List Host.Cell) : ∀ (lo a : Nat), wfFrom lo m = true → a < lo → read m a = Config.unlistedByte := by
  induction m with
  | nil => intros; rfl
  | cons cell rest ih =>
    obtain ⟨k, b⟩ := cell
    intro lo a h ha
    simp only [wfFrom, Bool.and_eq_true, decide_eq_true_eq] at h
    have hk : k ≠ a := by omega
    simp only [read, hk, if_false]
    exact ih (k + 1) a h.2 (by omega)

/-- A read after a write: the byte written at its own address, the byte held before at every other. -/
theorem read_write (m : List Host.Cell) (a : Nat) (v : Byte) :
    ∀ lo, wfFrom lo m = true → ∀ x, read (write m a v) x = if x = a then v else read m x := by
  induction m with
  | nil =>
    intro lo _ x
    by_cases hv : v = Config.unlistedByte <;> by_cases hx : a = x <;> simp [write, read, hv, hx, eq_comm]
  | cons cell rest ih =>
    obtain ⟨k, b⟩ := cell
    intro lo h x
    simp only [wfFrom, Bool.and_eq_true, decide_eq_true_eq] at h
    obtain ⟨⟨⟨h1, h2⟩, h3⟩, h4⟩ := h
    have hrest := ih (k + 1) h4 x
    have hlow : ∀ y, y < k + 1 → read rest y = Config.unlistedByte := fun y hy => read_of_lt rest (k + 1) y h4 hy
    unfold write
    split
    · split
      · by_cases hx : x = a
        · have hne : k ≠ x := by omega
          have hlt : x < k + 1 := by omega
          rw [if_pos hx, read, if_neg hne, hlow x hlt]
          exact Eq.symm ‹_›
        · rw [if_neg hx]
      · by_cases hx : x = a
        · rw [read, if_pos hx.symm, if_pos hx]
        · rw [read, if_neg (fun e => hx e.symm), if_neg hx]
    · split
      · next heq =>
        subst heq
        split
        · by_cases hx : x = a
          · have hlt : x < a + 1 := by omega
            rw [if_pos hx, hlow x hlt]
            exact Eq.symm ‹_›
          · rw [if_neg hx, read, if_neg (fun e => hx e.symm)]
        · by_cases hx : x = a
          · rw [read, if_pos hx.symm, if_pos hx]
          · rw [if_neg hx, read, read, if_neg (fun e => hx e.symm), if_neg (fun e => hx e.symm)]
      · by_cases hk : k = x
        · rw [read, if_pos hk, if_neg (by omega), read, if_pos hk]
        · rw [read, if_neg hk, hrest, read, if_neg hk]

/-- A write inside the address space keeps the canonical form, and its lower bound. -/
theorem wfFrom_write (m : List Host.Cell) (a : Nat) (v : Byte) (ha : a < 2 ^ 32) :
    ∀ lo, lo ≤ a → wfFrom lo m = true → wfFrom lo (write m a v) = true := by
  induction m with
  | nil =>
    intro lo hlo _
    unfold write
    split <;> simp_all [wfFrom]
  | cons cell rest ih =>
    obtain ⟨k, b⟩ := cell
    intro lo hlo h
    simp only [wfFrom, Bool.and_eq_true, decide_eq_true_eq] at h
    obtain ⟨⟨⟨h1, h2⟩, h3⟩, h4⟩ := h
    unfold write
    repeat' split
    all_goals try simp only [wfFrom, Bool.and_eq_true, decide_eq_true_eq]
    · exact ⟨⟨⟨h1, h2⟩, h3⟩, h4⟩
    · exact ⟨⟨⟨hlo, ha⟩, ‹_›⟩, ⟨⟨⟨by omega, h2⟩, h3⟩, h4⟩⟩
    · cases rest with
      | nil => rfl
      | cons cell' rest' =>
        simp only [wfFrom, Bool.and_eq_true, decide_eq_true_eq] at h4 ⊢
        exact ⟨⟨⟨by omega, h4.1.1.2⟩, h4.1.2⟩, h4.2⟩
    · exact ⟨⟨⟨hlo, ha⟩, ‹_›⟩, by subst a; exact h4⟩
    · exact ⟨⟨⟨h1, h2⟩, h3⟩, ih (k + 1) (by omega) h4⟩

/-- Every store of a byte keeps the canonical form. -/
theorem wf_write (m : List Host.Cell) (a : Word) (v : Byte) (h : wf m = true) : wf (write m a.toNat v) = true :=
  wfFrom_write m a.toNat v a.isLt 0 (Nat.zero_le _) h

/-- Every store of a word keeps the canonical form. -/
theorem wf_writeWord (m : List Host.Cell) (a w : Word) (h : wf m = true) : wf (writeWord m a w) = true :=
  wf_write _ _ _ (wf_write _ _ _ (wf_write _ _ _ (wf_write _ _ _ h)))

/-- Memory after reset is in the canonical form. -/
theorem wf_reset : wf State.reset.mem = true := rfl

end Sys2Proof.Machine.Memory
end

