-- ==== Sys2Proof/Tests/Slice0.lean ====
section
/-! SUPPORT. The model's own tests: words written out from the encodings of spec/30_encoding.md, single steps with the
expected results of spec/95_test_vectors.md, and for every statement with hypotheses a witness that meets them. -/

open Sys2Proof Sys2Proof.Machine

namespace Sys2Proof.Tests

/-- A state as the vectors of 95_test_vectors.md start from: reset, with these registers and these flags NZCV. -/
def start (nzcv : BitVec 4) (regs : List (Reg × Word)) : State :=
  let s := regs.foldl (fun s r => s.writeReg r.1 r.2) State.reset
  { s with cpsr := nzcv ++ 0x00000D3#28 }

/-- The step's next state with this word at the fetch. -/
def run (w : Nat) (s : State) : Option State :=
  match step (s.withFetchWord 32 w) with
  | .next t => some t
  | .fault _ | .refused _ => none

/-- A register and the flags NZCV after a step that leaves the engine running and the rest of the CPSR alone. -/
def ran (w : Nat) (r : Reg) (s : State) : Option (Word × BitVec 4) :=
  match run w s with
  | some t => if t.isRunning && t.cpsr.extractLsb' 0 28 == 0x00000D3#28 then
      some (t.readReg r, t.cpsr.extractLsb' 28 4) else none
  | none => none

/-- A halted engine. -/
def halted : State := { State.reset with status := .halted .unassignedIndex 0xEA000000#32 0#32 }

/-! ### Well-formedness: a word that is not its row's is refused (spec/opcode_table.json) -/

theorem test_illformed_reserved : Instr.wellFormed (.reservedCondition 0xE0000000#32) = false := by decide
theorem test_illformed_class01 : Instr.wellFormed (.unassignedClass01 0xEA000000#32) = false := by decide
theorem test_illformed_class01_cond : Instr.wellFormed (.unassignedClass01 0xF5900000#32) = false := by decide
theorem test_illformed_class10 : Instr.wellFormed (.unassignedClass10 0xE5900000#32) = false := by decide
theorem test_illformed_class10_cond : Instr.wellFormed (.unassignedClass10 0xFA000000#32) = false := by decide
theorem test_illformed_class11 : Instr.wellFormed (.unassignedClass11 0xEA000000#32) = false := by decide
theorem test_illformed_class11_cond : Instr.wellFormed (.unassignedClass11 0xFF000000#32) = false := by decide
theorem test_illformed_bit7_cond : Instr.wellFormed (.unassignedShiftBit7 0xF0010392#32) = false := by decide
theorem test_illformed_bit7_class : Instr.wellFormed (.unassignedShiftBit7 0xE2010392#32) = false := by decide
theorem test_illformed_bit7_bit7 : Instr.wellFormed (.unassignedShiftBit7 0xE0010312#32) = false := by decide
theorem test_illformed_bit7_bit4 : Instr.wellFormed (.unassignedShiftBit7 0xE0010382#32) = false := by decide
theorem test_decode_truncated : decode [0x28#8, 0x00#8, 0x18#8] = .error .truncated := by rfl

/-! ### Decoding: words written out field by field from R41 to R44

The groups of bits are cond, 00, I, opcode, S, Rn, Rd, then rot and imm8 (DP_IMM), shamt, type, 0 and Rm (DP_SHI), or
Rs, 0, type, 1 and Rm (DP_SHR). -/

theorem test_decode_and :
    decodeTableWord 32 0b0000_00_1_0000_0_0011_1001_0001_10001101 = some (.andImm .eq false 3 9 1#4 141#8) ∧
    decodeTableWord 32 0b0101_00_0_0000_0_1001_0011_00111_00_0_0110 = some (.andShi .pl false 9 3 7#5 .lsl 6) ∧
    decodeTableWord 32 0b1010_00_0_0000_1_0110_1001_0010_0_10_1_0011 = some (.andShr .ge true 6 9 2 .asr 3) := by
  decide

theorem test_decode_eor :
    decodeTableWord 32 0b0001_00_1_0001_1_1010_1110_1010_10110010 = some (.eorImm .ne true 10 14 10#4 178#8) ∧
    decodeTableWord 32 0b0110_00_0_0001_0_1110_1010_10100_01_0_1001 = some (.eorShi .vs false 14 10 20#5 .lsr 9) ∧
    decodeTableWord 32 0b1011_00_0_0001_0_1001_1110_1101_0_11_1_1010 = some (.eorShr .lt false 9 14 13 .ror 10) := by
  decide

theorem test_decode_sub :
    decodeTableWord 32 0b0010_00_1_0010_0_0001_0011_0011_11010111 = some (.subImm .cs false 1 3 3#4 215#8) ∧
    decodeTableWord 32 0b0111_00_0_0010_1_0011_0001_00001_10_0_1100 = some (.subShi .vc true 3 1 1#5 .asr 12) ∧
    decodeTableWord 32 0b1100_00_0_0010_1_1100_0011_1000_0_00_1_0001 = some (.subShr .gt true 12 3 8 .lsl 1) := by
  decide

theorem test_decode_rsb :
    decodeTableWord 32 0b0011_00_1_0011_1_1000_1000_1100_11111100 = some (.rsbImm .cc true 8 8 12#4 252#8) ∧
    decodeTableWord 32 0b1000_00_0_0011_1_1000_1000_01110_11_0_1111 = some (.rsbShi .hi true 8 8 14#5 .ror 15) ∧
    decodeTableWord 32 0b1101_00_0_0011_0_1111_1000_0011_0_01_1_1000 = some (.rsbShr .le false 15 8 3 .lsr 8) := by
  decide

theorem test_decode_add :
    decodeTableWord 32 0b0100_00_1_0100_0_1111_1101_0101_00100001 = some (.addImm .mi false 15 13 5#4 33#8) ∧
    decodeTableWord 32 0b1001_00_0_0100_0_1101_1111_11011_00_0_0010 = some (.addShi .ls false 13 15 27#5 .lsl 2) ∧
    decodeTableWord 32 0b1110_00_0_0100_1_0010_1101_1110_0_10_1_1111 = some (.addShr .al true 2 13 14 .asr 15) := by
  decide

theorem test_decode_adc :
    decodeTableWord 32 0b0101_00_1_0101_1_0110_0010_1110_01000110 = some (.adcImm .pl true 6 2 14#4 70#8) ∧
    decodeTableWord 32 0b1010_00_0_0101_0_0010_0110_01000_01_0_0101 = some (.adcShi .ge false 2 6 8#5 .lsr 5) ∧
    decodeTableWord 32 0b0000_00_0_0101_0_0101_0010_1001_0_11_1_0110 = some (.adcShr .eq false 5 2 9 .ror 6) := by
  decide

theorem test_decode_sbc :
    decodeTableWord 32 0b0110_00_1_0110_0_1101_0111_0111_01101011 = some (.sbcImm .vs false 13 7 7#4 107#8) ∧
    decodeTableWord 32 0b1011_00_0_0110_1_0111_1101_10101_10_0_1000 = some (.sbcShi .lt true 7 13 21#5 .asr 8) ∧
    decodeTableWord 32 0b0001_00_0_0110_1_1000_0111_0100_0_00_1_1101 = some (.sbcShr .ne true 8 7 4 .lsl 13) := by
  decide

theorem test_decode_rsc :
    decodeTableWord 32 0b0111_00_1_0111_1_0100_1100_0000_10010000 = some (.rscImm .vc true 4 12 0#4 144#8) ∧
    decodeTableWord 32 0b1100_00_0_0111_1_1100_0100_00010_11_0_1011 = some (.rscShi .gt true 12 4 2#5 .ror 11) ∧
    decodeTableWord 32 0b0010_00_0_0111_0_1011_1100_1111_0_01_1_0100 = some (.rscShr .cs false 11 12 15 .lsr 4) := by
  decide

theorem test_decode_tst :
    decodeTableWord 32 0b1000_00_1_1000_0_1011_0001_1001_10110101 = some (.tstImm .hi false 11 1 9#4 181#8) ∧
    decodeTableWord 32 0b1101_00_0_1000_0_0001_1011_01111_00_0_1110 = some (.tstShi .le false 1 11 15#5 .lsl 14) ∧
    decodeTableWord 32 0b0011_00_0_1000_1_1110_0001_1010_0_10_1_1011 = some (.tstShr .cc true 14 1 10 .asr 11) := by
  decide

theorem test_decode_teq :
    decodeTableWord 32 0b1001_00_1_1001_1_0010_0110_0010_11011010 = some (.teqImm .ls true 2 6 2#4 218#8) ∧
    decodeTableWord 32 0b1110_00_0_1001_0_0110_0010_11100_01_0_0001 = some (.teqShi .al false 6 2 28#5 .lsr 1) ∧
    decodeTableWord 32 0b0100_00_0_1001_0_0001_0110_0101_0_11_1_0010 = some (.teqShr .mi false 1 6 5 .ror 2) := by
  decide

theorem test_decode_cmp :
    decodeTableWord 32 0b1010_00_1_1010_0_1001_1011_1011_11111111 = some (.cmpImm .ge false 9 11 11#4 255#8) ∧
    decodeTableWord 32 0b0000_00_0_1010_1_1011_1001_01001_10_0_0100 = some (.cmpShi .eq true 11 9 9#5 .asr 4) ∧
    decodeTableWord 32 0b0101_00_0_1010_1_0100_1011_0000_0_00_1_1001 = some (.cmpShr .pl true 4 11 0 .lsl 9) := by
  decide

theorem test_decode_cmn :
    decodeTableWord 32 0b1011_00_1_1011_1_0000_0000_0100_00100100 = some (.cmnImm .lt true 0 0 4#4 36#8) ∧
    decodeTableWord 32 0b0001_00_0_1011_1_0000_0000_10110_11_0_0111 = some (.cmnShi .ne true 0 0 22#5 .ror 7) ∧
    decodeTableWord 32 0b0110_00_0_1011_0_0111_0000_1011_0_01_1_0000 = some (.cmnShr .vs false 7 0 11 .lsr 0) := by
  decide

theorem test_decode_orr :
    decodeTableWord 32 0b1100_00_1_1100_0_0111_0101_1101_01001001 = some (.orrImm .gt false 7 5 13#4 73#8) ∧
    decodeTableWord 32 0b0010_00_0_1100_0_0101_0111_00011_00_0_1010 = some (.orrShi .cs false 5 7 3#5 .lsl 10) ∧
    decodeTableWord 32 0b0111_00_0_1100_1_1010_0101_0110_0_10_1_0111 = some (.orrShr .vc true 10 5 6 .asr 7) := by
  decide

theorem test_decode_mov :
    decodeTableWord 32 0b1101_00_1_1101_1_1110_1010_0110_01101110 = some (.movImm .le true 14 10 6#4 110#8) ∧
    decodeTableWord 32 0b0011_00_0_1101_0_1010_1110_10000_01_0_1101 = some (.movShi .cc false 10 14 16#5 .lsr 13) ∧
    decodeTableWord 32 0b1000_00_0_1101_0_1101_1010_0001_0_11_1_1110 = some (.movShr .hi false 13 10 1 .ror 14) := by
  decide

theorem test_decode_bic :
    decodeTableWord 32 0b1110_00_1_1110_0_0101_1111_1111_10010011 = some (.bicImm .al false 5 15 15#4 147#8) ∧
    decodeTableWord 32 0b0100_00_0_1110_1_1111_0101_11101_10_0_0000 = some (.bicShi .mi true 15 5 29#5 .asr 0) ∧
    decodeTableWord 32 0b1001_00_0_1110_1_0000_1111_1100_0_00_1_0101 = some (.bicShr .ls true 0 15 12 .lsl 5) := by
  decide

theorem test_decode_mvn :
    decodeTableWord 32 0b0000_00_1_1111_1_1100_0100_1000_10111000 = some (.mvnImm .eq true 12 4 8#4 184#8) ∧
    decodeTableWord 32 0b0101_00_0_1111_1_0100_1100_01010_11_0_0011 = some (.mvnShi .pl true 4 12 10#5 .ror 3) ∧
    decodeTableWord 32 0b1010_00_0_1111_0_0011_0100_0111_0_01_1_1100 = some (.mvnShr .ge false 3 4 7 .lsr 12) := by
  decide

/-- The five faulting rows, each over its whole word (R53, R54; 95_test_vectors.md section 8). -/
theorem test_decode_faulting_rows :
    decodeTableWord 32 0b1111_00_0_0000_0_0000_0000_000000000000 = some (.reservedCondition 0xF0000000#32) ∧
    decodeTableWord 32 0b1110_01_0_1100_1_0000_0000_000000000000 = some (.unassignedClass01 0xE5900000#32) ∧
    decodeTableWord 32 0b0001_10_1_0000_0_0000_0000_000000000000 = some (.unassignedClass10 0x1A000000#32) ∧
    decodeTableWord 32 0b1110_11_1_1000_0_0000_0000_000000000000 = some (.unassignedClass11 0xEF000000#32) ∧
    decodeTableWord 32 0b1110_00_0_0000_0_0001_0000_0011_1_00_1_0010 = some (.unassignedShiftBit7 0xE0010392#32) := by
  decide

/-- The first byte in memory is bits 7:0 (20_memory.md R33, D13). -/
theorem test_decode_little_endian :
    decode [0x28#8, 0x00#8, 0x18#8, 0xE0#8] = .ok (.andShi .al true 8 0 0#5 .lsr 8, []) := by rfl

/-- 95_test_vectors.md section 8: dispatch indices of words. -/
theorem test_dispatch_index :
    dispatchIndex 0xE0180028#32 = 0x012#12 ∧ dispatchIndex 0xE3A004FF#32 = 0x3AF#12 ∧
    dispatchIndex 0xE0810312#32 = 0x081#12 ∧ dispatchIndex 0xEA000000#32 = 0xA00#12 := by decide

/-! ### One step, expected results from 95_test_vectors.md (sections 2, 5, 6): word, register read, registers and NZCV
before, register and NZCV after -/

/-- ANDS r0, r8, r8, LSR #32. -/
theorem test_and_1 :
    ran 0xE0180028 0 (start 0b0000#4 [(1, 0x00000001#32), (8, 0xFFFFFFFF#32)]) = some (0x00000000#32, 0b0110#4) := by decide

/-- ANDS r0, r1, #0xFF000000. -/
theorem test_and_2 :
    ran 0xE21104FF 0 (start 0b0000#4 [(1, 0x80000000#32)]) = some (0x80000000#32, 0b1010#4) := by decide

/-- EORS r2, r3, r3. -/
theorem test_eor_1 :
    ran 0xE0332003 2 (start 0b1011#4 [(2, 0x00000007#32), (3, 0xDEADBEEF#32)]) = some (0x00000000#32, 0b0111#4) := by decide

/-- EORS r0, r1, r2, ROR #4. -/
theorem test_eor_2 :
    ran 0xE0310262 0 (start 0b0000#4 [(1, 0x00000000#32), (2, 0xFFFFFFF7#32)]) = some (0x7FFFFFFF#32, 0b0000#4) := by decide

/-- SUBS r0, r1, r2. -/
theorem test_sub_1 :
    ran 0xE0510002 0 (start 0b0000#4 [(1, 0x80000000#32), (2, 0x00000001#32)]) = some (0x7FFFFFFF#32, 0b0011#4) := by decide

/-- SUB r0, r1, #1. -/
theorem test_sub_2 :
    ran 0xE2410001 0 (start 0b0100#4 [(1, 0x00000000#32)]) = some (0xFFFFFFFF#32, 0b0100#4) := by decide

/-- RSBS r0, r1, #0x80000000. -/
theorem test_rsb_1 :
    ran 0xE2710102 0 (start 0b0000#4 [(1, 0x00000001#32)]) = some (0x7FFFFFFF#32, 0b0011#4) := by decide

/-- RSBS r0, r1, r2. -/
theorem test_rsb_2 :
    ran 0xE0710002 0 (start 0b0000#4 [(1, 0xFFFFFFFF#32), (2, 0x7FFFFFFF#32)]) = some (0x80000000#32, 0b1001#4) := by decide

/-- ADDS r0, r1, r2. -/
theorem test_add_1 :
    ran 0xE0910002 0 (start 0b0010#4 [(1, 0x7FFFFFFF#32), (2, 0x00000001#32)]) = some (0x80000000#32, 0b1001#4) := by decide

/-- ADDS r0, r1, r2, LSL #31. -/
theorem test_add_2 :
    ran 0xE0910F82 0 (start 0b0000#4 [(1, 0x80000000#32), (2, 0x00000003#32)]) = some (0x00000000#32, 0b0111#4) := by decide

/-- ADCS r0, r1, r2. -/
theorem test_adc_1 :
    ran 0xE0B10002 0 (start 0b0010#4 [(1, 0x7FFFFFFF#32), (2, 0x00000000#32)]) = some (0x80000000#32, 0b1001#4) := by decide

/-- ADCS r0, r1, r2, LSR #1. -/
theorem test_adc_2 :
    ran 0xE0B100A2 0 (start 0b0000#4 [(1, 0x00000000#32), (2, 0x00000001#32)]) = some (0x00000000#32, 0b0100#4) := by decide

/-- SBCS r0, r1, r2. -/
theorem test_sbc_1 :
    ran 0xE0D10002 0 (start 0b0000#4 [(1, 0x00000000#32), (2, 0xFFFFFFFF#32)]) = some (0x00000000#32, 0b0100#4) := by decide

/-- SBC r0, r1, r2. -/
theorem test_sbc_2 :
    ran 0xE0C10002 0 (start 0b0001#4 [(1, 0x0000000A#32), (2, 0x00000003#32)]) = some (0x00000006#32, 0b0001#4) := by decide

/-- RSCS r0, r1, #0. -/
theorem test_rsc_1 :
    ran 0xE2F10000 0 (start 0b0010#4 [(1, 0x80000000#32)]) = some (0x80000000#32, 0b1001#4) := by decide

/-- RSC r0, r1, r2. -/
theorem test_rsc_2 :
    ran 0xE0E10002 0 (start 0b0000#4 [(1, 0x00000003#32), (2, 0x0000000A#32)]) = some (0x00000006#32, 0b0000#4) := by decide

/-- TST r1, #1. -/
theorem test_tst_1 :
    ran 0xE3110001 0 (start 0b1011#4 [(0, 0x000000AA#32), (1, 0x00000002#32)]) = some (0x000000AA#32, 0b0111#4) := by decide

/-- TST r1, r2 with S=0. -/
theorem test_tst_2 :
    ran 0xE1010002 0 (start 0b1010#4 [(0, 0x00000007#32), (1, 0x00000001#32), (2, 0x00000001#32)]) = some (0x00000007#32, 0b1010#4) := by decide

/-- TEQ r1, r2. -/
theorem test_teq_1 :
    ran 0xE1310002 1 (start 0b0110#4 [(1, 0x80000000#32), (2, 0x00000000#32)]) = some (0x80000000#32, 0b1010#4) := by decide

/-- TEQ r1, r2 with S=0, Rd field=3. -/
theorem test_teq_2 :
    ran 0xE1213002 3 (start 0b0101#4 [(1, 0x00000001#32), (2, 0x00000001#32), (3, 0x00000009#32)]) = some (0x00000009#32, 0b0101#4) := by decide

/-- CMP r1, r2. -/
theorem test_cmp_1 :
    ran 0xE1510002 1 (start 0b0000#4 [(1, 0x80000000#32), (2, 0x00000001#32)]) = some (0x80000000#32, 0b0011#4) := by decide

/-- CMP r1, r2, LSL r3. -/
theorem test_cmp_2 :
    ran 0xE1510312 1 (start 0b0000#4 [(1, 0x00000008#32), (2, 0x00000001#32), (3, 0x00000003#32)]) = some (0x00000008#32, 0b0110#4) := by decide

/-- CMN r1, #1. -/
theorem test_cmn_1 :
    ran 0xE3710001 1 (start 0b0000#4 [(1, 0x7FFFFFFF#32)]) = some (0x7FFFFFFF#32, 0b1001#4) := by decide

/-- CMN r1, r2 with S=0. -/
theorem test_cmn_2 :
    ran 0xE1610002 1 (start 0b1000#4 [(1, 0x00000001#32), (2, 0xFFFFFFFF#32)]) = some (0x00000001#32, 0b1000#4) := by decide

/-- ORRS r4, r5, #0x80000000. -/
theorem test_orr_1 :
    ran 0xE3954102 4 (start 0b0001#4 [(5, 0x00000001#32)]) = some (0x80000001#32, 0b1011#4) := by decide

/-- ORRS r0, r1, r2, LSL r3. -/
theorem test_orr_2 :
    ran 0xE1910312 0 (start 0b0010#4 [(1, 0x00000000#32), (2, 0x00000000#32), (3, 0x00000000#32)]) = some (0x00000000#32, 0b0110#4) := by decide

/-- MOVS r0, r1, ROR r2. -/
theorem test_mov_1 :
    ran 0xE1B00271 0 (start 0b0000#4 [(1, 0x80000001#32), (2, 0x00000020#32)]) = some (0x80000001#32, 0b1000#4) := by decide

/-- MOVS r0, r1, ROR #32 (shamt 0). -/
theorem test_mov_2 :
    ran 0xE1B00061 0 (start 0b0000#4 [(1, 0x80000001#32)]) = some (0x80000001#32, 0b1010#4) := by decide

/-- BICS r0, r1, r2, LSL #4. -/
theorem test_bic_1 :
    ran 0xE1D10202 0 (start 0b0000#4 [(1, 0xFFFFFFFF#32), (2, 0x1F000000#32)]) = some (0x0FFFFFFF#32, 0b0010#4) := by decide

/-- BIC r0, r1, #0xFF. -/
theorem test_bic_2 :
    ran 0xE3C100FF 0 (start 0b0000#4 [(1, 0xABCDEF12#32)]) = some (0xABCDEF00#32, 0b0000#4) := by decide

/-- MVNS r0, r1. -/
theorem test_mvn_1 :
    ran 0xE1F00001 0 (start 0b1001#4 [(1, 0xFFFFFFFF#32)]) = some (0x00000000#32, 0b0101#4) := by decide

/-- MVN r0, r1, ASR #31. -/
theorem test_mvn_2 :
    ran 0xE1E00FC1 0 (start 0b0000#4 [(1, 0x80000000#32)]) = some (0x00000000#32, 0b0000#4) := by decide

/-- MOVHI r0, #1: skipped. -/
theorem test_condition_1 :
    ran 0x83A00001 0 (start 0b0110#4 []) = some (0x00000000#32, 0b0110#4) := by decide

/-- MOVHI r0, #1. -/
theorem test_condition_2 :
    ran 0x83A00001 0 (start 0b0010#4 []) = some (0x00000001#32, 0b0010#4) := by decide

/-- MOVLE r0, #1: skipped. -/
theorem test_condition_3 :
    ran 0xD3A00001 0 (start 0b1001#4 []) = some (0x00000000#32, 0b1001#4) := by decide

/-- MOVGE r0, #1. -/
theorem test_condition_4 :
    ran 0xA3A00001 0 (start 0b1001#4 []) = some (0x00000001#32, 0b1001#4) := by decide

/-- MOV r0, r15. -/
theorem test_pc_read :
    ran 0xE1A0000F 0 (start 0b0000#4 [(15, 0x00000100#32)]) = some (0x00000100#32, 0b0000#4) := by decide

/-- MOVS r15, #0x80000000. -/
theorem test_pc_write :
    ran 0xE3B0F102 15 (start 0b0000#4 [(15, 0x00000040#32)]) = some (0x80000000#32, 0b1010#4) := by decide

/-- 95_test_vectors.md section 8: a branch word halts the engine with code 2, its word and its address, and changes no
register and no flag. -/
theorem test_branch_halts :
    (run 0xEA000000 (start 0b1010#4 [(15, 0x100#32)])).map (fun t =>
      (t.faultCode, t.faultInfo, t.readReg 15, t.cpsr)) =
      some (2, some (0xEA000000#32, 0x100#32), 0x100#32, 0xA00000D3#32) := by decide

/-- The same section: condition 15 halts with code 1 although the index is assigned. -/
theorem test_reserved_condition_halts :
    (run 0xF0000000 (start 0b0000#4 [])).map (fun t => (t.faultCode, t.faultInfo)) =
      some (1, some (0xF0000000#32, 0#32)) := by decide

/-- The same section: an unassigned word whose condition fails is skipped (EQ with Z = 0). -/
theorem test_unassigned_skipped :
    (run 0x0A000000 (start 0b0000#4 [])).map (fun t => (t.faultCode, t.cpsr)) = some (0, 0x000000D3#32) := by decide

/-- The same section: the fetch address (R141). -/
theorem test_fetch_address :
    fetchAddress 0x00000003#32 false = 0#32 ∧ fetchAddress 0x08000102#32 false = 0x08000100#32 ∧
    fetchAddress 0x00000003#32 true = 2#32 ∧ fetchAddress 0x00000004#32 true = 4#32 := by decide

/-- 95_test_vectors.md section 9, program P1's first step under the reference host: MVN r0, #0, then register 15 is 4 (R149). -/
theorem test_reference_host :
    (match stepUnder State.hostAdvance (State.reset.withFetchWord 32 0xE3E00000) with
      | .next t => (t.readReg 0, t.readReg 15)
      | .fault _ | .refused _ => (0#32, 0#32)) = (0xFFFFFFFF#32, 4#32) := by decide

/-- Memory: a byte is read back, the value an unlisted byte reads as unlists its address. -/
theorem test_memory_write :
    Memory.write [(1, 5#8), (3, 7#8)] 2 9#8 = [(1, 5#8), (2, 9#8), (3, 7#8)] ∧
    Memory.write [(1, 5#8), (3, 7#8)] 3 0#8 = [(1, 5#8)] ∧ Memory.read [(1, 5#8), (3, 7#8)] 3 = 7#8 ∧
    Memory.wf [(1, 5#8), (3, 7#8)] = true ∧ Memory.wf [(3, 7#8), (1, 5#8)] = false ∧ Memory.wf [(1, 0#8)] = false ∧
    Memory.wf [(0x100000000, 1#8)] = false := by decide

/-! ### Witnesses: for every statement with hypotheses, a concrete input that meets them -/

/-- DecodeInvertsEncode: one well-formed term of each kind. -/
theorem test_witness_wellformed :
    Instr.wellFormed (.mvnShr .le true 1 2 3 .ror 4) = true ∧
    Instr.wellFormed (.reservedCondition 0xFFFFFFFF#32) = true ∧
    Instr.wellFormed (.unassignedClass01 0xE5900000#32) = true ∧
    Instr.wellFormed (.unassignedClass10 0xEA000000#32) = true ∧
    Instr.wellFormed (.unassignedClass11 0xEF000000#32) = true ∧
    Instr.wellFormed (.unassignedShiftBit7 0xE0010392#32) = true := by decide

/-- DecodingFollowsTheProcedure: a word for each clause. -/
theorem test_witness_decoding_clauses :
    (0xF0000000#32).extractLsb' 28 4 = 0b1111#4 ∧ (0xE5900000#32).extractLsb' 28 4 = Cond.al.code ∧
    (0xE5900000#32).extractLsb' 26 2 = 0b01#2 ∧ (0xEA000000#32).extractLsb' 26 2 = 0b10#2 ∧
    (0xEF000000#32).extractLsb' 26 2 = 0b11#2 ∧
    ((0xE0010392#32).extractLsb' 26 2 = 0b00#2 ∧ (0xE0010392#32).getLsbD 25 = false ∧
      (0xE0010392#32).getLsbD 4 = true ∧ (0xE0010392#32).getLsbD 7 = true) ∧
    ((0xE3A004FF#32).extractLsb' 21 4 = AluOp.mov.code ∧ (0xE3A004FF#32).getLsbD 25 = true) ∧
    ((0xE0180028#32).getLsbD 25 = false ∧ (0xE0180028#32).extractLsb' 5 2 = ShiftType.lsr.code ∧
      (0xE0180028#32).getLsbD 4 = false) ∧
    ((0xE0810312#32).getLsbD 4 = true ∧ (0xE0810312#32).getLsbD 7 = false) := by decide

/-- DispatchTableLayout: the bounds at their edges. -/
theorem test_witness_table_bounds : 0x400 ≤ (0x400#12).toNat ∧ 0x400 ≤ (0xFFF#12).toNat ∧ 15 < 16 := by decide

/-- The words of the witnesses below: AND, a MOV to register 15, an unassigned word, a reserved one, one skipped. -/
def atFetch (w : Nat) : State := State.reset.withFetchWord 32 w

/-- Every statement over a running engine, a canonical memory or the invariant, and one whose step answers next. -/
theorem test_witness_running :
    (atFetch 0xE0180028).status = .running ∧ Memory.wf (atFetch 0xE0180028).mem = true ∧
    (∃ t, step (atFetch 0xE0180028) = .next t) := ⟨rfl, by decide, _, rfl⟩

/-- StepRunsTheDecodedInstruction: aligned, and the four bytes decode. -/
theorem test_witness_bytes_decode :
    (atFetch 0xE0180028).fetchAddr.extractLsb' 0 2 = 0#2 ∧
    (let s := atFetch 0xE0180028
     decode [Memory.read s.mem s.fetchAddr.toNat, Memory.read s.mem (s.fetchAddr.toNat + 1),
       Memory.read s.mem (s.fetchAddr.toNat + 2), Memory.read s.mem (s.fetchAddr.toNat + 3)]) =
      .ok (.andShi .al true 8 0 0#5 .lsr 8, []) := ⟨by decide, rfl⟩

/-- StepKeepsTheInvariant: a state with the invariant whose step executes, and one whose step faults. -/
theorem test_witness_invariant_kept :
    (atFetch 0xE0180028).Inv ∧ (atFetch 0xEA000000).Inv ∧
    (∃ t, step (atFetch 0xEA000000) = .next t ∧ t.status = .halted .unassignedIndex 0xEA000000#32 0#32) :=
  ⟨⟨by decide, trivial⟩, ⟨by decide, trivial⟩, _, rfl, rfl⟩

/-- HaltLastsUntilReset: a halted engine, and an action that is not reset. -/
theorem test_witness_halted :
    halted.status = .halted .unassignedIndex 0xEA000000#32 0#32 ∧ HostAction.writeCpsr 0#32 ≠ .reset := by decide

/-- SkippedInstructionChangesNothing: a fetched word, an instruction and a faulting row whose condition is false. -/
theorem test_witness_skipped :
    (atFetch 0x0A000000).status = .running ∧
    (atFetch 0x0A000000).evaluates (atFetch 0x0A000000).fetchedWord = some false ∧
    State.reset.passes .eq = false ∧ State.reset.evaluates 0x0A000000#32 = some false := by decide

/-- ReservedConditionHalts, and a word with code 15 at the fetch. -/
theorem test_witness_reserved :
    (atFetch 0xF1A00000).status = .running ∧
    (atFetch 0xF1A00000).fetchedWord.extractLsb' 28 4 = 0b1111#4 := by decide

/-- UnassignedIndexHalts: each of the two ways a fetched word is unassigned, with a true condition. -/
theorem test_witness_unassigned :
    (atFetch 0xE5900000).evaluates (atFetch 0xE5900000).fetchedWord = some true ∧
    (atFetch 0xE5900000).fetchedWord.extractLsb' 26 2 ≠ 0b00#2 ∧
    (atFetch 0xE0010392).evaluates (atFetch 0xE0010392).fetchedWord = some true ∧
    (atFetch 0xE0010392).fetchedWord.getLsbD 25 = false ∧ (atFetch 0xE0010392).fetchedWord.getLsbD 4 = true ∧
    (atFetch 0xE0010392).fetchedWord.getLsbD 7 = true ∧ State.reset.evaluates 0xE5900000#32 = some true := by decide

/-- FaultInterfaceShowsCodeWordAndAddress: both codes after a step, and no code where it executes. -/
theorem test_witness_fault_codes :
    (run 0xF0000000 State.reset).map State.faultCode = some 1 ∧
    (run 0xEA000000 State.reset).map State.faultCode = some 2 ∧
    (run 0xE0180028 State.reset).map State.faultCode = some 0 := by decide

/-- ProgramCounterIsNotAdvanced: a step that changes register 15 (MOV pc, #4) and one that does not. -/
theorem test_witness_pc_changes :
    (run 0xE3A0F004 State.reset).map (·.readReg 15) = some 4#32 ∧
    (run 0xE3A00004 State.reset).map (·.readReg 15) = some 0#32 ∧ State.reset.readReg 15 = 0#32 := by decide

/-- TracedWordIsTheExecutedOne: a traced state, and an untraced one. -/
theorem test_witness_traced :
    (atFetch 0xE0180028).traced = some 0xE0180028#32 ∧ (atFetch 0xEA000000).traced = none := by decide

/-- FlagsChangeOnlyBySetFlagInstructions: a step that changes the CPSR, by a logical operation. -/
theorem test_witness_flags_change :
    (run 0xE0180028 State.reset).map (·.cpsr) = some 0x400000D3#32 ∧ AluOp.isLogical .and = true := by decide

/-- StepDependsOnlyOnRegistersPsrAndWord: two different states with the same registers, CPSR and fetched word. -/
theorem test_witness_same_inputs :
    let s := atFetch 0xE0180028
    let s' := { s with mem := Memory.write s.mem 0x1000 1#8, spsr := ⟨1#32, 2#32, 3#32, 4#32, 5#32⟩ }
    s ≠ s' ∧ s.status = .running ∧ s'.status = .running ∧ s.x = s'.x ∧ s.cpsr = s'.cpsr ∧
      s.fetchedWord = s'.fetchedWord := by decide

/-- LslByImmediate to RorByImmediate, ShifterTestableProperties: the least and the greatest amount that is not 0. -/
theorem test_witness_shift_amounts : (1#5) ≠ 0#5 ∧ (31#5) ≠ 0#5 ∧ (0 < 32 ∧ 31 < 32) := by decide

/-- RegisterAmountsUseFiveBits: amounts that are 0 modulo 32 and that are not. -/
theorem test_witness_register_amounts :
    let s := start 0b0000#4 [(1, 0x100#32), (2, 0x20#32), (3, 0x21#32), (4, 0xFF#32)]
    (s.readOperand 1).toNat % 32 = 0 ∧ (s.readOperand 2).toNat % 32 = 0 ∧ (s.readOperand 3).toNat % 32 ≠ 0 ∧
      (s.readOperand 4).toNat % 32 ≠ 0 := by decide

/-- ShifterTestableProperties: a register that each clause names. -/
theorem test_witness_shifter_operands :
    let s := start 0b0000#4 [(1, 0x80000000#32), (2, 0xFFFFFFF7#32)]
    s.readOperand 1 = 0x80000000#32 ∧ (s.readOperand 1).getLsbD 31 = true ∧ s.readOperand 2 = 0xFFFFFFF7#32 := by
  decide

/-- The result statements of the sixteen operations, and ProgramCounterIsAnOrdinaryOperand: conditions that pass. -/
theorem test_witness_passes :
    State.reset.passes .al = true ∧ State.reset.passes .ne = true ∧ (start 0b0100#4 []).passes .le = true ∧
      (start 0b0010#4 []).passes .hi = true := by decide

/-- The comparisons write no register, and MOV and MVN are the operations that do not read Rn. -/
theorem test_witness_comparisons :
    AluOp.writesDest .tst = false ∧ AluOp.writesDest .teq = false ∧ AluOp.writesDest .cmp = false ∧
      AluOp.writesDest .cmn = false ∧ (AluOp.mvn = .mov ∨ AluOp.mvn = .mvn) := by decide

/-- ArithmeticTestableProperties: the operands of each clause. -/
theorem test_witness_arithmetic_operands :
    let s := start 0b0000#4 [(1, 1#32), (2, 2#32), (3, 0x7FFFFFFF#32), (4, 0xFFFFFFFF#32)]
    s.readOperand 1 = 0x00000001#32 ∧ s.readOperand 2 = 0x00000002#32 ∧ s.readOperand 3 = 0x7FFFFFFF#32 ∧
      s.readOperand 4 = 0xFFFFFFFF#32 := by decide

/-- LogicalTestableProperties: the operands of each clause. -/
theorem test_witness_logical_operands :
    let s := start 0b0000#4 [(1, 1#32), (8, 0xFFFFFFFF#32)]
    s.readOperand 0 = 0#32 ∧ s.readOperand 8 = 0xFFFFFFFF#32 ∧ s.readReg 1 = 1#32 ∧ s.readReg 8 = 0xFFFFFFFF#32 ∧
      s.psr .V = false := by decide

/-- PsrFieldWritesAreIndependent: bits outside a field, at its edges. -/
theorem test_witness_psr_bits : 27 ≠ PsrBit.pos .V ∧ 32 ≠ PsrBit.pos .N ∧ 5 ≤ 5 := by decide

/-- PsrFieldsAndRawWordAgree: a word meets the premises with itself. -/
theorem test_witness_psr_fields :
    (∀ b, Psr.readBit 0x900000D3#32 b = Psr.readBit 0x900000D3#32 b) ∧
      Psr.readMode 0x900000D3#32 = 0b10011#5 ∧ Psr.unnamed 0x900000D3#32 = 0#20 := ⟨fun _ => rfl, by decide⟩

/-- CanonicalMemoriesReadingAlikeAreEqual: a memory reached by two different runs of writes. -/
theorem test_witness_memories_alike :
    let m := Memory.write (Memory.write [] 7 1#8) 4 2#8
    let m' := Memory.write (Memory.write (Memory.write [] 4 2#8) 9 3#8) 7 1#8
    Memory.wf m = true ∧ Memory.wf (Memory.write m' 9 0#8) = true ∧
      (∀ a, Memory.read m a = Memory.read (Memory.write m' 9 0#8) a) := ⟨by decide, by decide, fun _ => rfl⟩

/-- PlacedWordIsFetchedAndRun: a canonical memory with T = 1 and a fetch address that is no multiple of 4, and an
address on each side of the four bytes. -/
theorem test_witness_placed :
    let s : State := { start 0b0000#4 [(15, 6#32)] with cpsr := 0x000000F3#32, mem := [(3, 1#8), (8, 1#8)] }
    Memory.wf s.mem = true ∧ s.fetchAddr = 6#32 ∧ (s.withFetchWord 32 0xE1A00000).fetchAddr = 4#32 ∧
      3 < (4#32).toNat ∧ (4#32).toNat + 4 ≤ 8 := by decide

/-- ReferenceHostAdvancesByFour: a step that leaves the engine running with T = 0, and one that halts it. -/
theorem test_witness_host :
    (∃ t, step (atFetch 0xE1A00000) = .next t ∧ t.status = .running ∧ t.psr .T = false) ∧
    (∃ t, step (atFetch 0xEA000000) = .next t ∧ t.status ≠ .running) := ⟨⟨_, rfl, rfl, rfl⟩, _, rfl, by decide⟩


end Sys2Proof.Tests
end

section
/-! SUPPORT. The status register and the general registers (spec/10_state.md R14 to R16, R25): the bits after each
write of the CPSR, what a step can do, and the statements O23, O49, O50 and O51. -/

namespace Sys2Proof.Machine

/-! ### The bits of the status register after a write of one field -/

theorem PsrBit.pos_lt (b : PsrBit) : b.pos < 32 := by cases b <;> decide

/-- Every bit of a CPSR after a write of a one-bit field (R15 (b)). -/
theorem Psr.writeBit_getLsbD (p : Word) (b : PsrBit) (v : Bool) (k : Nat) :
    (Psr.writeBit p b v).getLsbD k = if k = b.pos then v else p.getLsbD k := by
  have hmask : (1#32 <<< b.pos).getLsbD k = decide (k = b.pos) := by
    rw [← BitVec.twoPow_eq, BitVec.getLsbD_twoPow]
    simp [b.pos_lt, eq_comm]
  cases v with
  | true => by_cases hk : k = b.pos <;> simp [Psr.writeBit, hmask, hk, b.pos_lt]
  | false =>
    simp only [Psr.writeBit, Bool.false_eq_true, if_false, BitVec.getLsbD_and, BitVec.getLsbD_not, hmask]
    by_cases hk : k = b.pos
    · simp [hk]
    · simpa [hk] using fun hbit => BitVec.lt_of_getLsbD hbit

/-- Every bit of a CPSR after a write of the mode field (R15 (b)). -/
theorem Psr.writeMode_getLsbD (p : Word) (m : BitVec 5) (k : Nat) :
    (Psr.writeMode p m).getLsbD k = if k < 5 then m.getLsbD k else p.getLsbD k := by
  show BitVec.getLsbD (w := 27 + 5) _ k = _
  unfold Psr.writeMode
  rw [BitVec.getLsbD_append]
  split
  · rfl
  · have hle : 5 ≤ k := by omega
    rw [BitVec.getLsbD_extractLsb', Nat.add_sub_cancel' hle]
    simpa using fun hbit => by have := BitVec.lt_of_getLsbD hbit; omega

@[simp] theorem Psr.readBit_writeBit (p : Word) (b : PsrBit) (v : Bool) :
    Psr.readBit (Psr.writeBit p b v) b = v := by
  rw [Psr.readBit, Psr.writeBit_getLsbD, if_pos rfl]

theorem Psr.readMode_getLsbD (p : Word) {k : Nat} (hk : k < 5) : (Psr.readMode p).getLsbD k = p.getLsbD k := by
  simp [Psr.readMode, hk]

theorem Psr.unnamed_getLsbD (p : Word) {k : Nat} (hk : k < 20) : (Psr.unnamed p).getLsbD k = p.getLsbD (8 + k) := by
  simp [Psr.unnamed, hk]

@[simp] theorem Psr.readMode_writeMode (p : Word) (m : BitVec 5) : Psr.readMode (Psr.writeMode p m) = m := by
  apply BitVec.eq_of_getLsbD_eq
  intro k hk
  rw [Psr.readMode_getLsbD _ hk, Psr.writeMode_getLsbD, if_pos hk]

/-- The named fields and bits 27:8 cover the word (R13, R22). -/
theorem Psr.eq_of_fields {p q : Word} (hbit : ∀ b, Psr.readBit p b = Psr.readBit q b)
    (hmode : Psr.readMode p = Psr.readMode q) (hunnamed : Psr.unnamed p = Psr.unnamed q) : p = q := by
  have bitAt (b : PsrBit) : p.getLsbD b.pos = q.getLsbD b.pos := hbit b
  apply BitVec.eq_of_getLsbD_eq
  intro k hk
  obtain hk | rfl | rfl | rfl | ⟨j, hj, rfl⟩ | rfl | rfl | rfl | rfl :
      k < 5 ∨ k = 5 ∨ k = 6 ∨ k = 7 ∨ (∃ j, j < 20 ∧ k = 8 + j) ∨ k = 28 ∨ k = 29 ∨ k = 30 ∨ k = 31 := by
    by_cases hmid : 8 ≤ k ∧ k < 28
    · exact .inr (.inr (.inr (.inr (.inl ⟨k - 8, by omega, by omega⟩))))
    · omega
  · rw [← Psr.readMode_getLsbD p hk, hmode, Psr.readMode_getLsbD q hk]
  · exact bitAt .T
  · exact bitAt .F
  · exact bitAt .I
  · rw [← Psr.unnamed_getLsbD p hj, hunnamed, Psr.unnamed_getLsbD q hj]
  · exact bitAt .V
  · exact bitAt .C
  · exact bitAt .Z
  · exact bitAt .N

/-- Settles O49: each write is known bit by bit. -/
theorem psrFieldWritesAreIndependent : Obligations.PsrFieldWritesAreIndependent := by
  unfold Obligations.PsrFieldWritesAreIndependent
  refine fun p => ⟨fun n z c v => ?_, fun b v => ?_, fun m => ?_⟩
  · have flag (b : PsrBit) := Psr.writeNzcv_getLsbD p n z c v b.pos
    exact ⟨Psr.writeNzcv_low p n z c v, flag .N, flag .Z, flag .C, flag .V⟩
  · exact ⟨Psr.readBit_writeBit p b v, fun k hk => by rw [Psr.writeBit_getLsbD, if_neg hk]⟩
  · exact ⟨Psr.readMode_writeMode p m, fun k hk => by rw [Psr.writeMode_getLsbD, if_neg (by omega)]⟩

/-- Settles O50: a raw write is the word itself, each field is read back, and the fields cover the word. -/
theorem psrFieldsAndRawWordAgree : Obligations.PsrFieldsAndRawWordAgree := by
  unfold Obligations.PsrFieldsAndRawWordAgree
  refine ⟨fun s w => ⟨rfl, fun b => rfl⟩, fun s b v => ?_, fun s m => ?_, fun p q => Psr.eq_of_fields⟩
  · exact Psr.readBit_writeBit s.cpsr b v
  · exact Psr.readMode_writeMode s.cpsr m

/-! ### Reset -/

@[simp] theorem State.reset_readReg (i : Reg) : State.reset.readReg i = 0#32 := by
  simp [State.readReg, State.reset]

@[simp] theorem State.hostReset_readReg (s : State) (i : Reg) : s.hostReset.readReg i = State.reset.readReg i := rfl

/-- Settles O51: a reset raised by the host leaves the registers of the state after reset. -/
theorem resetClearsTheGeneralRegisters : Obligations.ResetClearsTheGeneralRegisters := by
  unfold Obligations.ResetClearsTheGeneralRegisters
  exact fun i => ⟨State.reset_readReg i, fun s => (s.hostReset_readReg i).trans (State.reset_readReg i)⟩

/-! ### What a step can do, and what it leaves of the status register -/

/-- Every operation is an effect of its group (R44, R90, R111). -/
theorem aluEffect_cases (op : AluOp) (sf : Bool) (rn rd : Reg) (op2 : Operand2) (s : State) :
    let dest := if op.writesDest then some rd else none
    (op.isLogical = true ∧ ∃ f, aluEffect op sf rn rd op2 s = logicalEffect f sf rn dest op2 s) ∨
      (op.isLogical = false ∧ ∃ g, aluEffect op sf rn rd op2 s = arithmeticEffect g sf rn dest op2 s) := by
  cases op with
  | and => exact .inl ⟨rfl, fun a b => a &&& b, rfl⟩
  | eor => exact .inl ⟨rfl, fun a b => a ^^^ b, rfl⟩
  | tst => exact .inl ⟨rfl, fun a b => a &&& b, rfl⟩
  | teq => exact .inl ⟨rfl, fun a b => a ^^^ b, rfl⟩
  | orr => exact .inl ⟨rfl, fun a b => a ||| b, rfl⟩
  | mov => exact .inl ⟨rfl, fun _ b => b, rfl⟩
  | bic => exact .inl ⟨rfl, fun a b => a &&& ~~~b, rfl⟩
  | mvn => exact .inl ⟨rfl, fun _ b => ~~~b, rfl⟩
  | sub => exact .inr ⟨rfl, fun a b _ => addWithCarry a (~~~b) true, rfl⟩
  | rsb => exact .inr ⟨rfl, fun a b _ => addWithCarry b (~~~a) true, rfl⟩
  | add => exact .inr ⟨rfl, fun a b _ => addWithCarry a b false, rfl⟩
  | adc => exact .inr ⟨rfl, fun a b c => addWithCarry a b c, rfl⟩
  | sbc => exact .inr ⟨rfl, fun a b c => addWithCarry a (~~~b) c, rfl⟩
  | rsc => exact .inr ⟨rfl, fun a b c => addWithCarry b (~~~a) c, rfl⟩
  | cmp => exact .inr ⟨rfl, fun a b _ => addWithCarry a (~~~b) true, rfl⟩
  | cmn => exact .inr ⟨rfl, fun a b _ => addWithCarry a b false, rfl⟩

/-- What the effect of any operation leaves: the frame, and the CPSR as it was where S = 0. -/
theorem aluEffect_frame (op : AluOp) (sf : Bool) (rn rd : Reg) (op2 : Operand2) (s : State) :
    let t := aluEffect op sf rn rd op2 s
    t.banks = s.banks ∧ t.spsr = s.spsr ∧ t.status = s.status ∧ t.mem = s.mem ∧
      t.cpsr.extractLsb' 0 28 = s.cpsr.extractLsb' 0 28 ∧ (sf = false → t.cpsr = s.cpsr) := by
  obtain ⟨-, f, heffect⟩ | ⟨-, g, heffect⟩ := aluEffect_cases op sf rn rd op2 s
  · rw [heffect]
    exact logicalEffect_frame f sf rn _ op2 s
  · rw [heffect]
    exact arithmeticEffect_frame g sf rn _ op2 s

/-- The logical group keeps V (R90). -/
theorem logicalEffect_V (f : Word → Word → Word) (sf : Bool) (rn : Reg) (dest : Option Reg) (op2 : Operand2)
    (s : State) : (logicalEffect f sf rn dest op2 s).psr .V = s.psr .V := by
  cases sf with
  | false =>
    obtain ⟨-, -, -, -, -, hcpsr⟩ := logicalEffect_frame f false rn dest op2 s
    rw [State.psr, hcpsr rfl, State.psr]
  | true =>
    obtain ⟨-, hflags⟩ := logicalEffect_result f true rn dest op2 s
    obtain ⟨-, -, -, hV⟩ := hflags rfl
    exact hV

/-- The same of the effect of an operation of the group (R44). -/
theorem aluEffect_V_of_isLogical {op : AluOp} (h : op.isLogical = true) (sf : Bool) (rn rd : Reg) (op2 : Operand2)
    (s : State) : (aluEffect op sf rn rd op2 s).psr .V = s.psr .V := by
  obtain ⟨-, f, heffect⟩ | ⟨hnot, -⟩ := aluEffect_cases op sf rn rd op2 s
  · rw [heffect, logicalEffect_V]
  · exact absurd h (by simp [hnot])

/-- What an instruction can do: execute with its condition passing, nothing, or raise a decode fault. -/
theorem exec_cases (i : Instr) (s : State) :
    (∃ op cond sf rn rd op2, i = .dp op cond sf rn rd op2 ∧ s.passes cond = true ∧
        exec i s = .next (aluEffect op sf rn rd op2 s)) ∨
      exec i s = .next s ∨ ∃ cause insn, exec i s = .next (s.raiseDecodeFault cause insn) := by
  obtain ⟨op, cond, sf, rn, rd, op2, rfl⟩ | ⟨insn, rfl⟩ | ⟨insn, hrow⟩ := instr_cases i
  · cases hcond : s.passes cond with
    | true =>
      refine .inl ⟨op, cond, sf, rn, rd, op2, rfl, hcond, ?_⟩
      rw [exec_dp, conditionally_pass hcond]
    | false => exact .inr (.inl (by rw [exec_dp, conditionally_fail hcond]))
  · exact .inr (.inr ⟨.reservedCondition, insn, rfl⟩)
  · have hexec : exec i s = .next (unassignedEffect insn s) := by
      obtain rfl | rfl | rfl | rfl := hrow <;> rfl
    rw [hexec]
    obtain ⟨-, heffect⟩ | ⟨-, heffect⟩ | ⟨-, heffect⟩ := unassignedEffect_cases insn s
    · exact .inr (.inl (by rw [heffect]))
    · exact .inr (.inr ⟨_, _, by rw [heffect]⟩)
    · exact .inr (.inr ⟨_, _, by rw [heffect]⟩)

/-- What a step can do (R140, R148): execute a fetched instruction whose condition passes, nothing, or raise a decode
fault; only a running engine does more than nothing. -/
theorem step_cases {s t : State} (h : step s = .next t) :
    (s.status = .running ∧ ∃ op cond sf rn rd op2, s.fetchedInstr = .dp op cond sf rn rd op2 ∧
        s.passes cond = true ∧ t = aluEffect op sf rn rd op2 s) ∨
      t = s ∨ (s.status = .running ∧ ∃ cause insn, t = s.raiseDecodeFault cause insn) := by
  cases hstatus : s.status with
  | halted cause insn addr =>
    rw [step_halted hstatus] at h
    cases h
    exact .inr (.inl rfl)
  | running =>
    rw [step_running hstatus] at h
    obtain ⟨op, cond, sf, rn, rd, op2, hinstr, hcond, hexec⟩ | hexec | ⟨cause, insn, hexec⟩ :=
      exec_cases s.fetchedInstr s <;> rw [hexec] at h <;> cases h
    · exact .inl ⟨rfl, op, cond, sf, rn, rd, op2, hinstr, hcond, rfl⟩
    · exact .inr (.inl rfl)
    · exact .inr (.inr ⟨rfl, cause, insn, rfl⟩)

/-- Settles O23: a skip and a fault keep the CPSR, and an execution with S = 0 does too; so the step executed with
S = 1. -/
theorem flagsChangeOnlyBySetFlagInstructions : Obligations.FlagsChangeOnlyBySetFlagInstructions := by
  unfold Obligations.FlagsChangeOnlyBySetFlagInstructions
  refine ⟨fun s t hstep hchange => ?_, fun s i v addr b => ⟨State.writeReg_cpsr s i v, rfl⟩⟩
  obtain ⟨hrunning, op, cond, sf, rn, rd, op2, hinstr, hcond, rfl⟩ | rfl | ⟨-, cause, insn, rfl⟩ := step_cases hstep
  · obtain ⟨-, -, -, -, hlow, hkept⟩ := aluEffect_frame op sf rn rd op2 s
    cases sf with
    | false => exact absurd (hkept rfl) hchange
    | true =>
      exact ⟨hrunning, hlow, op, cond, rn, rd, op2, hinstr, hcond,
        fun hlogical => aluEffect_V_of_isLogical hlogical true rn rd op2 s⟩
  · exact absurd rfl hchange
  · exact absurd (s.raiseDecodeFault_cpsr cause insn) hchange

end Sys2Proof.Machine
end

section
/-! SUPPORT. Decoding and the dispatch index (spec/30_encoding.md R41 to R46, R51; 44_dispatch_table.md R131): the
fields of an encoded word, the cases of the decoder, the entry of the dispatch table at a word's index, and the
statements O4 and O6. -/

namespace Sys2Proof

/-! ### The fields of an encoded data-processing word -/

theorem extractLsb'_eq_of_getLsbD {n len start : Nat} {w : BitVec n} {f : BitVec len}
    (h : ∀ k < len, w.getLsbD (start + k) = f.getLsbD k) : w.extractLsb' start len = f := by
  apply BitVec.eq_of_getLsbD_eq
  intro k hk
  rw [BitVec.getLsbD_extractLsb', h k hk, decide_eq_true hk, Bool.true_and]

/-- A field inside a low part of a word is a field of that part. -/
theorem extractLsb'_of_low_part {n start len m : Nat} (w : BitVec n) (h : start + len ≤ m) :
    w.extractLsb' start len = (w.extractLsb' 0 m).extractLsb' start len := by
  apply extractLsb'_eq_of_getLsbD
  intro k hk
  simp [hk, show start + k < m by omega]

theorem getLsbD_of_low_part {n k m : Nat} (w : BitVec n) (h : k < m) :
    w.getLsbD k = (w.extractLsb' 0 m).getLsbD k := by
  simp [h]

/-- Every operation is encoded with its own code, beside the fields it was given (R41, R42, R44). -/
theorem encodedWith_code (op : AluOp) : Claims.EncodedWith op op.code := by
  intro cond sf rn rd op2
  have bit := encodeDp_getLsbD op cond sf rn rd op2
  simp only [encode_dp]
  refine ⟨?_, ?_, bit 25, ?_, bit 20, congrArg BitVec.toFin (?_ : _ = BitVec.ofFin (w := 4) rn),
    congrArg BitVec.toFin (?_ : _ = BitVec.ofFin (w := 4) rd), ?_⟩
  all_goals
    apply extractLsb'_eq_of_getLsbD
    intro k hk
    rw [bit]
    simp (disch := omega) only [if_neg, if_pos, Nat.add_sub_cancel_left, Nat.zero_add, BitVec.getLsbD_zero]

/-! ### Operand 2 of a word -/

theorem Operand2.bits_imm (rot : BitVec 4) (imm8 : BitVec 8) :
    let b := (Operand2.imm rot imm8).bits
    b.extractLsb' 8 4 = rot ∧ b.extractLsb' 0 8 = imm8 :=
  ⟨BitVec.extractLsb'_append_eq_left, BitVec.extractLsb'_append_eq_right⟩

theorem Operand2.bits_shi (shamt : BitVec 5) (ty : ShiftType) (rm : Reg) :
    let b := (Operand2.shi shamt ty rm).bits
    b.extractLsb' 7 5 = shamt ∧ b.extractLsb' 5 2 = ty.code ∧ b.getLsbD 4 = false ∧
      b.extractLsb' 0 4 = BitVec.ofFin rm := by
  show let b : BitVec (5 + 2 + 1 + 4) := shamt ++ ty.code ++ 0b0#1 ++ BitVec.ofFin (w := 4) rm
    b.extractLsb' 7 5 = shamt ∧ b.extractLsb' 5 2 = ty.code ∧ b.getLsbD 4 = false ∧
      b.extractLsb' 0 4 = BitVec.ofFin rm
  simp (disch := omega) only [BitVec.extractLsb'_append_eq_of_le, BitVec.extractLsb'_append_eq_of_add_le,
    BitVec.getLsbD_append]
  exact ⟨BitVec.extractLsb'_eq_self, BitVec.extractLsb'_eq_self, rfl, BitVec.extractLsb'_eq_self⟩

theorem Operand2.bits_shr (rs : Reg) (ty : ShiftType) (rm : Reg) :
    let b := (Operand2.shr rs ty rm).bits
    b.extractLsb' 8 4 = BitVec.ofFin rs ∧ b.getLsbD 7 = false ∧ b.extractLsb' 5 2 = ty.code ∧
      b.getLsbD 4 = true ∧ b.extractLsb' 0 4 = BitVec.ofFin rm := by
  show let b : BitVec (4 + 1 + 2 + 1 + 4) :=
      BitVec.ofFin (w := 4) rs ++ 0b0#1 ++ ty.code ++ 0b1#1 ++ BitVec.ofFin (w := 4) rm
    b.extractLsb' 8 4 = BitVec.ofFin rs ∧ b.getLsbD 7 = false ∧ b.extractLsb' 5 2 = ty.code ∧
      b.getLsbD 4 = true ∧ b.extractLsb' 0 4 = BitVec.ofFin rm
  simp (disch := omega) only [BitVec.extractLsb'_append_eq_of_le, BitVec.extractLsb'_append_eq_of_add_le,
    BitVec.getLsbD_append]
  exact ⟨BitVec.extractLsb'_eq_self, rfl, BitVec.extractLsb'_eq_self, rfl, BitVec.extractLsb'_eq_self⟩

/-- A word with the I bit and the bits 11:0 of an operand 2 has that operand 2, with either treatment of the
register-shift form with bit 7 set (R42, R46). -/
theorem operand2OfWord_of_bits {w : Word} {o : Operand2} (mode : RegShiftBit7) (himm : w.getLsbD 25 = o.isImm)
    (hbits : w.extractLsb' 0 12 = o.bits) : operand2OfWord mode w = some o := by
  have field {start len : Nat} (h : start + len ≤ 12) : w.extractLsb' start len = o.bits.extractLsb' start len := by
    rw [extractLsb'_of_low_part w h, hbits]
  have bit {k : Nat} (h : k < 12) : w.getLsbD k = o.bits.getLsbD k := by
    rw [getLsbD_of_low_part w h, hbits]
  unfold operand2OfWord
  simp (disch := omega) only [himm, field, bit]
  cases o with
  | imm rot imm8 =>
    obtain ⟨hrot, himm8⟩ := Operand2.bits_imm rot imm8
    simp only [hrot, himm8, Operand2.isImm, if_true]
  | shi shamt ty rm =>
    obtain ⟨hshamt, hty, hbit4, hrm⟩ := Operand2.bits_shi shamt ty rm
    simp only [hshamt, hty, hbit4, hrm, Operand2.isImm, Bool.false_eq_true, Bool.not_false, if_true, if_false,
      ShiftType.ofCode_code]
  | shr rs ty rm =>
    obtain ⟨hrs, hbit7, hty, hbit4, hrm⟩ := Operand2.bits_shr rs ty rm
    simp only [hrs, hty, hbit4, hbit7, hrm, Operand2.isImm, Bool.false_eq_true, Bool.not_false, Bool.not_true, if_true,
      if_false, ShiftType.ofCode_code]

theorem operand2OfWord_encode_dp (mode : RegShiftBit7) (op : AluOp) (cond : Cond) (sf : Bool) (rn rd : Reg)
    (op2 : Operand2) : operand2OfWord mode (encode (.dp op cond sf rn rd op2)) = some op2 := by
  obtain ⟨-, -, himm, -, -, -, -, hbits⟩ := encodedWith_code op cond sf rn rd op2
  exact operand2OfWord_of_bits mode himm hbits

/-- The words of class 00 without an operand 2: the register-shift form with bit 7 set (R54, D6). -/
theorem operand2OfWord_eq_none (w : Word) :
    operand2OfWord Config.regShiftBit7Set w = none ↔
      w.getLsbD 25 = false ∧ w.getLsbD 4 = true ∧ w.getLsbD 7 = true := by
  unfold operand2OfWord
  cases w.getLsbD 25 with
  | true => simp
  | false =>
    cases w.getLsbD 4 with
    | false => simp
    | true => cases w.getLsbD 7 <;> simp [Config.regShiftBit7Set]

/-! ### The cases of the decoder -/

/-- The instruction of a word of class 00 with a condition and an operand 2 (R46). -/
theorem decodeWord_eq_dp {w : Word} {cond : Cond} {op2 : Operand2}
    (hcond : Cond.ofCode (w.extractLsb' 28 4) = some cond) (hclass : w.extractLsb' 26 2 = 0b00#2)
    (hop2 : operand2OfWord Config.regShiftBit7Set w = some op2) :
    decodeWord w = .dp (AluOp.ofCode (w.extractLsb' 21 4)) cond (w.getLsbD 20) (w.extractLsb' 16 4).toFin
      (w.extractLsb' 12 4).toFin op2 := by
  simp [decodeWord, decodeWith, hcond, hclass, hop2]

/-- Decoding gives back an encoded data-processing instruction (R46, R59). -/
theorem decodeWord_encode_dp (op : AluOp) (cond : Cond) (sf : Bool) (rn rd : Reg) (op2 : Operand2) :
    decodeWord (encode (.dp op cond sf rn rd op2)) = .dp op cond sf rn rd op2 := by
  obtain ⟨hcond, hclass, -, hop, hsf, hrn, hrd, -⟩ := encodedWith_code op cond sf rn rd op2
  rw [decodeWord_eq_dp (by rw [hcond, Cond.ofCode_code]) hclass (operand2OfWord_encode_dp _ op cond sf rn rd op2),
    hop, hrn, hrd, hsf, AluOp.ofCode_code]

/-- What a word decodes to (R46, R53, R54): a faulting row of a word with the reserved condition, of another class, or
in the register-shift form with bit 7 set; a data-processing instruction otherwise. -/
theorem decodeWord_cases (w : Word) :
    (w.extractLsb' 28 4 = 0b1111#4 ∧ decodeWord w = .reservedCondition w) ∨
      (w.extractLsb' 26 2 ≠ 0b00#2 ∧ (decodeWord w = .unassignedClass01 w ∨ decodeWord w = .unassignedClass10 w ∨
        decodeWord w = .unassignedClass11 w)) ∨
      ((w.getLsbD 25 = false ∧ w.getLsbD 4 = true ∧ w.getLsbD 7 = true) ∧ decodeWord w = .unassignedShiftBit7 w) ∨
      (w.extractLsb' 28 4 ≠ 0b1111#4 ∧ w.extractLsb' 26 2 = 0b00#2 ∧
        ¬(w.getLsbD 25 = false ∧ w.getLsbD 4 = true ∧ w.getLsbD 7 = true) ∧
        ∃ op cond sf rn rd op2, decodeWord w = .dp op cond sf rn rd op2) := by
  cases hcond : Cond.ofCode (w.extractLsb' 28 4) with
  | none => exact .inl ⟨(Cond.ofCode_eq_none _).1 hcond, by simp [decodeWord, decodeWith, hcond]⟩
  | some cond =>
    have hcode : w.extractLsb' 28 4 ≠ 0b1111#4 := fun h => by simp [(Cond.ofCode_eq_none _).2 h] at hcond
    by_cases hclass : w.extractLsb' 26 2 = 0b00#2
    · cases hop2 : operand2OfWord Config.regShiftBit7Set w with
      | none =>
        have hform := (operand2OfWord_eq_none w).1 hop2
        exact .inr (.inr (.inl ⟨hform, by simp [decodeWord, decodeWith, hcond, hclass, hop2]⟩))
      | some op2 =>
        refine .inr (.inr (.inr ⟨hcode, hclass, fun h => ?_, _, _, _, _, _, _, decodeWord_eq_dp hcond hclass hop2⟩))
        simp [(operand2OfWord_eq_none w).2 h] at hop2
    · refine .inr (.inl ⟨hclass, ?_⟩)
      simp only [decodeWord, decodeWith, hcond]
      split
      case h_1 hzero => exact absurd (BitVec.eq_of_toNat_eq hzero) hclass
      all_goals simp

/-- A faulting row is no data-processing instruction. -/
theorem not_isDp_of_faulting {i : Instr} {w : Word}
    (hrow : i = .reservedCondition w ∨ i = .unassignedClass01 w ∨ i = .unassignedClass10 w ∨
      i = .unassignedClass11 w ∨ i = .unassignedShiftBit7 w) :
    ¬∃ op cond sf rn rd op2, i = .dp op cond sf rn rd op2 := by
  rintro ⟨op, cond, sf, rn, rd, op2, rfl⟩
  revert hrow
  cases op2 <;> cases op <;> simp [Instr.dp, Instr.dpImm, Instr.dpShi, Instr.dpShr]

/-- Which words are in-scope data-processing instructions (R45). -/
theorem decodeWord_isDp_iff (w : Word) :
    (∃ op cond sf rn rd op2, decodeWord w = .dp op cond sf rn rd op2) ↔
      w.extractLsb' 28 4 ≠ 0b1111#4 ∧ w.extractLsb' 26 2 = 0b00#2 ∧
        ¬(w.getLsbD 25 = false ∧ w.getLsbD 4 = true ∧ w.getLsbD 7 = true) := by
  obtain ⟨hcode, hrow⟩ | ⟨hclass, hrow⟩ | ⟨hform, hrow⟩ | ⟨hcode, hclass, hform, hdp⟩ := decodeWord_cases w
  · exact iff_of_false (not_isDp_of_faulting (.inl hrow)) fun ⟨hne, _, _⟩ => hne hcode
  · exact iff_of_false (not_isDp_of_faulting (.inr (hrow.imp_right (.imp_right .inl)))) fun ⟨_, heq, _⟩ => hclass heq
  · exact iff_of_false (not_isDp_of_faulting (.inr (.inr (.inr (.inr hrow))))) fun ⟨_, _, hnot⟩ => hnot hform
  · exact iff_of_true hdp ⟨hcode, hclass, hform⟩

end Sys2Proof

namespace Sys2Proof.Machine

/-! ### The dispatch index -/

/-- Every bit of the index: bits 11:4 are bits 27:20 of the word, bits 3:0 its bits 7:4 (R51). -/
theorem dispatchIndex_getLsbD (w : Word) {k : Nat} (hk : k < 12) :
    (dispatchIndex w).getLsbD k = if k < 4 then w.getLsbD (4 + k) else w.getLsbD (16 + k) := by
  rw [dispatchIndex, BitVec.getLsbD_append]
  by_cases hlow : k < 4
  · simp [hlow]
  · have hword : 20 + (k - 4) = 16 + k := by omega
    simp [hlow, hword, show k - 4 < 8 by omega]

theorem dispatchIndex_low (w : Word) {start len : Nat} (h : start + len ≤ 4) :
    (dispatchIndex w).extractLsb' start len = w.extractLsb' (4 + start) len := by
  apply extractLsb'_eq_of_getLsbD
  intro k hk
  rw [dispatchIndex_getLsbD w (by omega), if_pos (by omega), BitVec.getLsbD_extractLsb', decide_eq_true hk,
    Bool.true_and, Nat.add_assoc]

theorem dispatchIndex_high (w : Word) {start len : Nat} (hstart : 4 ≤ start) (hend : start + len ≤ 12) :
    (dispatchIndex w).extractLsb' start len = w.extractLsb' (16 + start) len := by
  apply extractLsb'_eq_of_getLsbD
  intro k hk
  rw [dispatchIndex_getLsbD w (by omega), if_neg (by omega), BitVec.getLsbD_extractLsb', decide_eq_true hk,
    Bool.true_and, Nat.add_assoc]

/-- The masks of R51 select bits 11:4 and bits 3:0. -/
theorem dispatchIndex_toNat (w : Word) :
    (dispatchIndex w).toNat = ((w.toNat >>> 16) &&& 0xFF0) ||| ((w.toNat >>> 4) &&& 0xF) := by
  have hhigh : (w.toNat >>> 20 % 2 ^ 8) <<< 4 = (w.toNat >>> 16) &&& 0xFF0 := by
    apply Nat.eq_of_testBit_eq
    intro i
    rw [show 0xFF0 = (2 ^ 8 - 1) <<< 4 from rfl]
    simp only [Nat.testBit_and, Nat.testBit_shiftLeft, Nat.testBit_shiftRight, Nat.testBit_mod_two_pow,
      Nat.testBit_two_pow_sub_one]
    by_cases hi : 4 ≤ i
    · simp [hi, show 20 + (i - 4) = 16 + i by omega, Bool.and_comm]
    · simp [hi]
  have hlow : w.toNat >>> 4 % 2 ^ 4 = (w.toNat >>> 4) &&& 0xF := (Nat.and_two_pow_sub_one_eq_mod _ 4).symm
  rw [dispatchIndex, BitVec.toNat_append, BitVec.extractLsb'_toNat, BitVec.extractLsb'_toNat, hhigh, hlow]

/-- Settles O6: the fields of the index are those of the word, and the masks select them. -/
theorem dispatchIndexIsItsBits : Obligations.DispatchIndexIsItsBits := by
  unfold Obligations.DispatchIndexIsItsBits
  intro w
  refine ⟨dispatchIndex_toNat w, dispatchIndex_high w ?_ ?_, dispatchIndex_low w ?_, dispatchIndex_high w ?_ ?_,
    dispatchIndex_getLsbD w ?_, dispatchIndex_high w ?_ ?_, dispatchIndex_getLsbD w ?_⟩ <;> omega

/-! ### The dispatch table at the index of a word -/

/-- The operand encoding of an operand 2 (R131). -/
def OperandEncoding.ofOperand2 : Operand2 → OperandEncoding
  | .imm .. => .imm
  | .shi _ ty _ => .byImm ty
  | .shr _ ty _ => .byReg ty

theorem OperandEncoding.ofOperand2_operand2 (enc : OperandEncoding) (w : Word) :
    .ofOperand2 (enc.operand2 w) = enc := by
  cases enc <;> rfl

/-- The entry at the index of a word: the operation, S and operand encoding of a word of class 00 that has an operand 2,
and none for every other word (R132). -/
theorem handlerAt_dispatchIndex (mode : RegShiftBit7) (w : Word) :
    handlerAt mode (dispatchIndex w) =
      if w.extractLsb' 26 2 = 0b00#2 then
        (operand2OfWord mode w).map fun op2 => ⟨AluOp.ofCode (w.extractLsb' 21 4), w.getLsbD 20, .ofOperand2 op2⟩
      else none := by
  unfold handlerAt operand2OfWord
  simp (disch := omega) only [dispatchIndex_high, dispatchIndex_low, dispatchIndex_getLsbD]
  by_cases hclass : w.extractLsb' 26 2 = 0b00#2
  · simp only [hclass]
    cases w.getLsbD 25 with
    | true => rfl
    | false =>
      cases w.getLsbD 4 with
      | false => rfl
      | true =>
        cases w.getLsbD 7 with
        | false => rfl
        | true => cases mode <;> rfl
  · simp [hclass]

/-- The handler of a data-processing instruction stands at the index of its word (R131, R132). -/
theorem handlerAt_dispatchIndex_encode_dp (mode : RegShiftBit7) (op : AluOp) (cond : Cond) (sf : Bool) (rn rd : Reg)
    (op2 : Operand2) :
    handlerAt mode (dispatchIndex (encode (.dp op cond sf rn rd op2))) = some ⟨op, sf, .ofOperand2 op2⟩ := by
  obtain ⟨-, hclass, -, hop, hsf, -, -, -⟩ := encodedWith_code op cond sf rn rd op2
  rw [handlerAt_dispatchIndex, if_pos hclass, operand2OfWord_encode_dp, hop, hsf, AluOp.ofCode_code, Option.map_some]

/-- Every handler stands in the table: at the index of a word with its operation, S and operand encoding. -/
theorem exists_handlerAt (mode : RegShiftBit7) (h : Handler) : ∃ i, handlerAt mode i = some h := by
  refine ⟨dispatchIndex (encode (.dp h.op .al h.sf 0 0 (h.enc.operand2 0#32))), ?_⟩
  rw [handlerAt_dispatchIndex_encode_dp, OperandEncoding.ofOperand2_operand2]

/-! ### The 288 handlers -/

/-- The sixteen operations, by their codes (R44). -/
def allOps : List AluOp :=
  [.and, .eor, .sub, .rsb, .add, .adc, .sbc, .rsc, .tst, .teq, .cmp, .cmn, .orr, .mov, .bic, .mvn]

/-- The nine operand encodings (R131). -/
def allEncodings : List OperandEncoding :=
  [.byImm .lsl, .byImm .lsr, .byImm .asr, .byImm .ror, .byReg .lsl, .byReg .lsr, .byReg .asr, .byReg .ror, .imm]

/-- The handlers: every operation with each setting of S and each operand encoding (R131). -/
def allHandlers : List Handler :=
  (allOps ×ˢ [false, true] ×ˢ allEncodings).map fun (op, sf, enc) => ⟨op, sf, enc⟩

theorem mem_allOps (op : AluOp) : op ∈ allOps := by cases op <;> decide

theorem mem_allEncodings (enc : OperandEncoding) : enc ∈ allEncodings := by
  cases enc with
  | byImm ty => cases ty <;> decide
  | byReg ty => cases ty <;> decide
  | imm => decide

theorem mem_allHandlers (h : Handler) : h ∈ allHandlers := by
  refine List.mem_map.2 ⟨(h.op, h.sf, h.enc), ?_, rfl⟩
  simp [mem_allOps, mem_allEncodings]

theorem allHandlers_length : allHandlers.length = 288 := by
  rw [allHandlers, List.length_map, List.length_product, List.length_product]
  rfl

theorem allHandlers_nodup : allHandlers.Nodup := by
  have hops : allOps.Nodup := by decide
  have hencodings : allEncodings.Nodup := by decide
  refine (hops.product (List.Nodup.product (by decide) hencodings)).map ?_
  rintro ⟨op, sf, enc⟩ ⟨op', sf', enc'⟩ heq
  simpa using heq

/-- Settles O4: by the cases of the decoder, the word each combination is encoded as, and the list of all handlers. -/
theorem inScopeWordsAreExactlyThese : Obligations.InScopeWordsAreExactlyThese := by
  unfold Obligations.InScopeWordsAreExactlyThese
  refine ⟨decodeWord_isDp_iff, fun op cond sf rn rd op2 => ⟨?_, fun s => ⟨_, exec_dp op cond sf rn rd op2 s⟩⟩, ?_⟩
  · exact ⟨encode (.dp op cond sf rn rd op2), decodeWord_encode_dp op cond sf rn rd op2⟩
  · exact ⟨allHandlers, allHandlers_length, allHandlers_nodup, fun h => ⟨mem_allHandlers h, exists_handlerAt .fault h⟩⟩

end Sys2Proof.Machine
end

section
/-! SUPPORT. The barrel shifter (spec/41_barrel_shifter.md): the bits of a rotated and of an arithmetically shifted
word, what each operand form answers, and the statements O32 and O33. -/

namespace Sys2Proof.Machine

/-! ### The bits of a shifted word -/

/-- Every bit of a word rotated right, by any amount (R75, R82). -/
theorem rotateRight_getLsbD (v : Word) (n : Nat) {k : Nat} (hk : k < 32) :
    (v.rotateRight n).getLsbD k = v.getLsbD ((k + n) % 32) := by
  rw [BitVec.getLsbD_rotateRight]
  by_cases hlow : k < 32 - n % 32
  · have hpos : (k + n) % 32 = n % 32 + k := by omega
    simp [hlow, hpos]
  · have hpos : (k + n) % 32 = k - (32 - n % 32) := by omega
    simp [hlow, hk, hpos]

/-- Every bit of a word shifted right arithmetically: above the moved bits stand copies of bit 31 (R74). -/
theorem sshiftRight_getLsbD (v : Word) (n : Nat) {k : Nat} (hk : k < 32) :
    (v.sshiftRight n).getLsbD k = v.getLsbD (min (k + n) 31) := by
  rw [BitVec.getLsbD_sshiftRight, BitVec.msb_eq_getLsbD_last]
  by_cases hlow : n + k < 32
  · have hpos : min (k + n) 31 = n + k := by omega
    simp [hk, hlow, hpos]
  · have hpos : min (k + n) 31 = 31 := by omega
    simp [hk, hlow, hpos]

/-- A negative word shifted right arithmetically by 31 or more keeps nothing but its sign (R74). -/
theorem sshiftRight_eq_allOnes {v : Word} {n : Nat} (hn : 31 ≤ n) (hv : v.getLsbD 31 = true) :
    v.sshiftRight n = BitVec.allOnes 32 := by
  apply BitVec.eq_of_getLsbD_eq
  intro k hk
  have hpos : min (k + n) 31 = 31 := by omega
  rw [sshiftRight_getLsbD v n hk, hpos, hv, BitVec.getLsbD_allOnes, decide_eq_true hk]

/-! ### The operand forms -/

@[simp] theorem State.shifterOperand_imm (s : State) (rot : BitVec 4) (imm8 : BitVec 8) :
    s.shifterOperand (.imm rot imm8) = rotatedImmediate rot imm8 (s.psr .C) := rfl

/-- An immediate amount of 0 is a case of its own for each type (R72 to R75). -/
@[simp] theorem State.shifterOperand_shi_zero (s : State) (ty : ShiftType) (rm : Reg) :
    s.shifterOperand (.shi 0#5 ty rm) = shiftImmZero ty (s.readOperand rm) (s.psr .C) := rfl

/-- Any other immediate amount is the number of positions shifted (R72 to R75). -/
theorem State.shifterOperand_shi_of_ne_zero (s : State) (ty : ShiftType) (rm : Reg) {n : BitVec 5} (hn : n ≠ 0#5) :
    s.shifterOperand (.shi n ty rm) = shiftBy ty (s.readOperand rm) n.toNat := if_neg hn

/-- Every bit of the rotated immediate (R50, R82): a bit of the zero-extended byte, so 0 from position 8 up. -/
theorem rotatedValue_getLsbD (rot : BitVec 4) (imm8 : BitVec 8) {k : Nat} (hk : k < 32) :
    (rotatedValue rot imm8).getLsbD k = imm8.getLsbD ((k + 2 * rot.toNat) % 32) := by
  have hpos : (k + 2 * rot.toNat) % 32 < 32 := Nat.mod_lt _ (by decide)
  rw [rotatedValue, rotateRight_getLsbD _ _ hk, BitVec.getLsbD_setWidth, decide_eq_true hpos, Bool.true_and]

/-- Settles O32: the bits of the rotated immediate, and a carry-out whose test is on the field. -/
theorem rotatedImmediateValueAndCarry : Obligations.RotatedImmediateValueAndCarry := by
  unfold Obligations.RotatedImmediateValueAndCarry
  intro s rot imm8
  rw [State.shifterOperand_imm, rotatedImmediate]
  exact ⟨fun k hk => rotatedValue_getLsbD rot imm8 hk, by rw [BitVec.msb_eq_getLsbD_last]⟩

/-- Settles O33: amount 0 by its own case; ASR by the bits that enter at the top; ROR of the one word by its value. -/
theorem shifterTestableProperties : Obligations.ShifterTestableProperties := by
  unfold Obligations.ShifterTestableProperties
  refine ⟨fun s rm => ?lslZero, fun s rm => ?lsrZero, fun s rm n hn hv => ?asrSign, fun s rm hv => ?asrAll,
    fun s rm hv => ?ror⟩
  case lslZero => rw [State.shifterOperand_shi_zero, shiftImmZero]
  case lsrZero => rw [State.shifterOperand_shi_zero, shiftImmZero, BitVec.msb_eq_getLsbD_last]
  case asrSign =>
    have hpos : min (31 + n.toNat) 31 = 31 := by omega
    rw [State.shifterOperand_shi_of_ne_zero s .asr rm hn, shiftBy, shiftAsr, sshiftRight_getLsbD _ _ (by decide), hpos,
      hv]
    decide
  case asrAll =>
    rw [State.shifterOperand_shi_of_ne_zero s .asr rm (by decide), shiftBy, shiftAsr,
      sshiftRight_eq_allOnes (by decide) hv]
    rfl
  case ror =>
    rw [State.shifterOperand_shi_of_ne_zero s .ror rm (by decide), shiftBy, shiftRor, hv]
    decide

end Sys2Proof.Machine
end

section
/-! SUPPORT. The logical group (spec/42_alu_logical.md R90 to R101): the run of an operation from its effect, that a
comparison writes no register, and the statements O36, O38 and O47. -/

namespace Sys2Proof.Machine

/-! ### Registers and frame, in the terms of the statements -/

theorem onlyRegister_writeReg (s : State) (rd : Reg) (v : Word) : Claims.OnlyRegister s (s.writeReg rd v) rd v :=
  ⟨s.readReg_writeReg_self rd v, fun j hj => s.readReg_writeReg_ne rd j v hj⟩

/-- An effect of the logical group changes the destination alone, or no register where it has none. -/
theorem logicalEffect_registers (f : Word → Word → Word) (writes sf : Bool) (rn rd : Reg) (op2 : Operand2) (s : State) :
    let r := f (s.readOperand rn) (s.shifterOperand op2).value
    let t := logicalEffect f sf rn (if writes then some rd else none) op2 s
    if writes then Claims.OnlyRegister s t rd r else Claims.NoRegister s t := by
  obtain ⟨hregs, -⟩ := logicalEffect_result f sf rn (if writes then some rd else none) op2 s
  cases writes with
  | true =>
    obtain ⟨hrd, hother⟩ := onlyRegister_writeReg s rd (f (s.readOperand rn) (s.shifterOperand op2).value)
    exact ⟨(hregs rd).trans hrd, fun j hj => (hregs j).trans (hother j hj)⟩
  | false => exact hregs

/-- A comparison writes no register: its effect has no destination (R97, R98, R118, R119). -/
theorem aluEffect_noRegister {op : AluOp} (h : op.writesDest = false) (sf : Bool) (rn rd : Reg) (op2 : Operand2)
    (s : State) : Claims.NoRegister s (aluEffect op sf rn rd op2 s) := by
  have heffect := aluEffect_cases op sf rn rd op2 s
  simp only [h, Bool.false_eq_true, if_false] at heffect
  obtain ⟨-, f, heffect⟩ | ⟨-, g, heffect⟩ := heffect
  · rw [heffect]
    obtain ⟨hregs, -⟩ := logicalEffect_result f sf rn none op2 s
    exact hregs
  · rw [heffect]
    obtain ⟨hregs, -⟩ := arithmeticEffect_result g sf rn none op2 s
    exact hregs

/-- A comparison writes no register, whether its condition passes or not (R100, R101, R122). -/
theorem exec_noRegister {op : AluOp} (h : op.writesDest = false) (cond : Cond) (sf : Bool) (rn rd : Reg)
    (op2 : Operand2) (s : State) :
    ∃ t, exec (.dp op cond sf rn rd op2) s = .next t ∧ Claims.NoRegister s t := by
  refine ⟨_, exec_dp op cond sf rn rd op2 s, ?_⟩
  cases hcond : s.passes cond with
  | true =>
    rw [conditionally_pass hcond]
    exact aluEffect_noRegister h sf rn rd op2 s
  | false =>
    rw [conditionally_fail hcond]
    exact fun _ => rfl

/-! ### The run of an operation of the logical group -/

/-- An operation whose effect is that of its group for `f` runs as R90 says: one effect, its registers, its flags and
its frame. -/
theorem logicalRun_of_effect {op : AluOp} {writes : Bool} {f : Word → Word → Word}
    (heffect : ∀ sf rn rd op2 s,
      aluEffect op sf rn rd op2 s = logicalEffect f sf rn (if writes then some rd else none) op2 s) :
    Claims.LogicalRun op writes f := by
  intro cond sf rn rd op2 s hcond
  obtain ⟨-, hflags⟩ := logicalEffect_result f sf rn (if writes then some rd else none) op2 s
  obtain ⟨hbanks, hspsr, hstatus, hmem, hlow, hkept⟩ :=
    logicalEffect_frame f sf rn (if writes then some rd else none) op2 s
  have hexec : exec (.dp op cond sf rn rd op2) s =
      .next (logicalEffect f sf rn (if writes then some rd else none) op2 s) := by
    rw [exec_dp, conditionally_pass hcond, heffect]
  exact ⟨_, hexec, logicalEffect_registers f writes sf rn rd op2 s, ⟨hflags, hkept⟩,
    hbanks, hspsr, hstatus, hmem, fun a => by rw [hmem], hlow⟩

theorem logicalRun_and : Claims.LogicalRun .and true fun a b => a &&& b :=
  logicalRun_of_effect fun _ _ _ _ _ => rfl

/-- Settles O36: each is encoded with its own code, and its effect is that of its group with a destination. -/
theorem logicalOperationsWriteTheirResult : Obligations.LogicalOperationsWriteTheirResult := by
  unfold Obligations.LogicalOperationsWriteTheirResult
  exact ⟨⟨encodedWith_code .and, logicalRun_and⟩,
    ⟨encodedWith_code .eor, logicalRun_of_effect fun _ _ _ _ _ => rfl⟩,
    ⟨encodedWith_code .orr, logicalRun_of_effect fun _ _ _ _ _ => rfl⟩,
    ⟨encodedWith_code .mov, logicalRun_of_effect fun _ _ _ _ _ => rfl⟩⟩

/-- Settles O38: each is encoded with its own code, and its effect is that of its group without a destination. -/
theorem testsSetOnlyFlags : Obligations.TestsSetOnlyFlags := by
  unfold Obligations.TestsSetOnlyFlags
  exact ⟨⟨encodedWith_code .tst, logicalRun_of_effect fun _ _ _ _ _ => rfl⟩,
    ⟨encodedWith_code .teq, logicalRun_of_effect fun _ _ _ _ _ => rfl⟩⟩

/-! ### The testable properties -/

@[simp] theorem State.passes_al (s : State) : s.passes .al = true := rfl

/-- ANDS with operand 2 a register shifted by an immediate amount, always executed: the result, and the flags from it
and from the shifter (R91). -/
theorem exec_andsShi (rn rd rm : Reg) (shamt : BitVec 5) (ty : ShiftType) (s : State) :
    let shifted := s.shifterOperand (.shi shamt ty rm)
    let r := s.readOperand rn &&& shifted.value
    ∃ t, exec (.andShi .al true rn rd shamt ty rm) s = .next t ∧ t.readReg rd = r ∧
      Claims.Flags t r.msb (r == 0#32) shifted.carry (s.psr .V) := by
  obtain ⟨t, hexec, ⟨hrd, -⟩, ⟨hflags, -⟩, -⟩ := logicalRun_and .al true rn rd (.shi shamt ty rm) s s.passes_al
  exact ⟨t, hexec, hrd, hflags rfl⟩

/-- ANDS of a register with itself takes N and Z from the register and keeps C and V: an unshifted operand 2 carries
out the carry flag (R72, R101). -/
theorem exec_ands_self (rd : Reg) {rm : Reg} {s : State} {v : Word} (hrm : s.readOperand rm = v) :
    ∃ t, exec (.andShi .al true rm rd 0#5 .lsl rm) s = .next t ∧
      Claims.Flags t v.msb (v == 0#32) (s.psr .C) (s.psr .V) := by
  obtain ⟨t, hexec, -, hflags⟩ := exec_andsShi rm rd rm 0#5 .lsl s
  rw [State.shifterOperand_shi_zero, shiftImmZero, hrm, BitVec.and_self] at hflags
  exact ⟨t, hexec, hflags⟩

/-- ANDS with LSR #32 as operand 2: the result is 0, and C is bit 31 of the shifted register (R73, R101). -/
theorem exec_ands_lsr32 (rn rd rm : Reg) (s : State) :
    ∃ t, exec (.andShi .al true rn rd 0#5 .lsr rm) s = .next t ∧ t.readReg rd = 0#32 ∧
      Claims.Flags t false true (s.readOperand rm).msb (s.psr .V) := by
  obtain ⟨t, hexec, hrd, hflags⟩ := exec_andsShi rn rd rm 0#5 .lsr s
  rw [State.shifterOperand_shi_zero, shiftImmZero, BitVec.and_zero] at hrd hflags
  exact ⟨t, hexec, hrd, hflags⟩

/-- Settles O47: ANDS of a register with itself at two values, ANDS with LSR #32 of all ones, and no register for a
comparison. -/
theorem logicalTestableProperties : Obligations.LogicalTestableProperties := by
  unfold Obligations.LogicalTestableProperties
  refine ⟨fun rd rm s hrm => exec_ands_self rd hrm, fun rd rm s hrm => exec_ands_self rd hrm, fun s _ hr8 hV => ?lsr32,
    fun op cond sf rn rd op2 s h => exec_noRegister h cond sf rn rd op2 s⟩
  case lsr32 =>
    have hands := exec_ands_lsr32 8 0 8 s
    rw [State.readOperand_eq, hr8, hV] at hands
    exact hands

end Sys2Proof.Machine
end

section
/-! SUPPORT. The arithmetic group (spec/43_alu_arithmetic.md R110 to R122): the adder on a sum and on a difference, the
run of an operation from its adder call, what CMP leaves of the order of its operands, and the statements O34, O35, O39,
O40, O42 and O46. -/

namespace Sys2Proof.Machine

/-! ### The adder on a sum -/

section
variable (a b : Word) (cin : Bool)

theorem addWithCarry_result_toNat :
    (addWithCarry a b cin).result.toNat = (a.toNat + b.toNat + cin.toNat) % 2 ^ 32 :=
  BitVec.toNat_ofNat ..

theorem addWithCarry_carry_iff : (addWithCarry a b cin).carry = true ↔ 2 ^ 32 ≤ a.toNat + b.toNat + cin.toNat :=
  decide_eq_true_iff

theorem addWithCarry_overflow_iff_msb :
    (addWithCarry a b cin).overflow = true ↔ a.msb = b.msb ∧ (addWithCarry a b cin).result.msb ≠ a.msb := by
  simp [addWithCarry]

/-- The overflow output is exact signed overflow (R110): the sign rule read off the unsigned values. -/
theorem addWithCarry_overflow_iff_toInt :
    (addWithCarry a b cin).overflow = true ↔
      a.toInt + b.toInt + cin.toNat < -2 ^ 31 ∨ 2 ^ 31 ≤ a.toInt + b.toInt + cin.toNat := by
  have hcin := Bool.toNat_le cin
  rw [addWithCarry_overflow_iff_msb]
  simp only [BitVec.msb_eq_decide, BitVec.toInt_eq_toNat_cond, addWithCarry_result_toNat, ne_eq, decide_eq_decide]
  omega

theorem addWithCarry_false_result : (addWithCarry a b false).result = a + b := rfl

end

/-! ### The adder on a difference: the second operand complemented -/

/-- As a signed value, the complement of `q` is `-q - 1`. -/
theorem toInt_not_eq (q : Word) : (~~~q).toInt = -q.toInt - 1 := by
  simp only [BitVec.toInt_eq_toNat_cond, BitVec.toNat_not]
  omega

section
variable (p q : Word) (cin : Bool)

/-- `p + ~q + cin` is `p - q - (1 - cin)` (R110, R120). -/
theorem addWithCarry_not_result :
    (addWithCarry p (~~~q) cin).result = p - q - BitVec.ofNat 32 (Claims.borrowIn cin) := by
  have hcin := Bool.toNat_le cin
  apply BitVec.eq_of_toNat_eq
  simp only [addWithCarry_result_toNat, BitVec.toNat_sub, BitVec.toNat_not, BitVec.toNat_ofNat, Claims.borrowIn]
  omega

/-- The carry of a difference is not-borrow (R120). -/
theorem addWithCarry_not_carry_iff :
    (addWithCarry p (~~~q) cin).carry = true ↔ q.toNat + Claims.borrowIn cin ≤ p.toNat := by
  have hcin := Bool.toNat_le cin
  rw [addWithCarry_carry_iff, BitVec.toNat_not, Claims.borrowIn]
  omega

theorem addWithCarry_not_overflow_iff_msb :
    (addWithCarry p (~~~q) cin).overflow = true ↔
      p.msb ≠ q.msb ∧ (addWithCarry p (~~~q) cin).result.msb ≠ p.msb := by
  have hsign : p.msb = (~~~q).msb ↔ p.msb ≠ q.msb := by
    rw [BitVec.msb_not]
    exact Bool.eq_not
  rw [addWithCarry_overflow_iff_msb, hsign]

/-- The overflow output of a difference is exact signed overflow (R110). -/
theorem addWithCarry_not_overflow_iff_toInt :
    (addWithCarry p (~~~q) cin).overflow = true ↔
      p.toInt - q.toInt - (1 - cin.toNat) < -2 ^ 31 ∨ 2 ^ 31 ≤ p.toInt - q.toInt - (1 - cin.toNat) := by
  rw [addWithCarry_overflow_iff_toInt, toInt_not_eq]
  omega

theorem addWithCarry_not_true_result : (addWithCarry p (~~~q) true).result = p - q := by
  rw [addWithCarry_not_result]
  exact BitVec.sub_zero _

theorem addWithCarry_not_true_carry_iff : (addWithCarry p (~~~q) true).carry = true ↔ q.toNat ≤ p.toNat :=
  addWithCarry_not_carry_iff p q true

end

/-- Settles O34: the adder on a sum, and on a sum with the complement. -/
theorem addWithCarryIsExact : Obligations.AddWithCarryIsExact := by
  unfold Obligations.AddWithCarryIsExact
  intro p q cin
  simp only [show ∀ w : Word, w.getLsbD 31 = w.msb from fun w => w.msb_eq_getLsbD_last.symm]
  refine ⟨addWithCarry_result_toNat p q cin, addWithCarry_carry_iff p q cin, addWithCarry_overflow_iff_msb p q cin,
    ?sumRange, ?difference, addWithCarry_not_carry_iff p q cin, addWithCarry_not_overflow_iff_msb p q cin, ?diffRange⟩
  case sumRange =>
    rw [addWithCarry_overflow_iff_toInt]
    omega
  case difference =>
    rw [addWithCarry_result_toNat, BitVec.toNat_not]
    omega
  case diffRange =>
    rw [addWithCarry_not_overflow_iff_toInt]
    omega

/-- Bit 32 of a 64-bit word, as arithmetic. -/
theorem getLsbD_32_iff (w : BitVec 64) : w.getLsbD 32 = true ↔ w.toNat / 2 ^ 32 % 2 = 1 := by
  rw [BitVec.getLsbD, Nat.testBit_eq_decide_div_mod_eq, decide_eq_true_iff]

/-- Settles O35: the 64-bit sum is the exact sum, and the 64-bit difference wraps exactly when a borrow occurs. -/
theorem carryOfSubtractionIsNotBorrow : Obligations.CarryOfSubtractionIsNotBorrow := by
  unfold Obligations.CarryOfSubtractionIsNotBorrow
  intro p q cin
  have hcin := Bool.toNat_le cin
  refine ⟨addWithCarry_not_carry_iff p q cin, ?sum, ?difference⟩
  case sum =>
    rw [Bool.eq_iff_iff, addWithCarry_carry_iff, getLsbD_32_iff]
    simp only [BitVec.toNat_add, BitVec.toNat_setWidth, BitVec.toNat_ofBool, BitVec.toNat_not]
    omega
  case difference =>
    rw [Bool.eq_iff_iff, addWithCarry_not_carry_iff, Bool.not_eq_true', ← Bool.not_eq_true, getLsbD_32_iff]
    simp only [BitVec.toNat_sub, BitVec.toNat_setWidth, BitVec.toNat_ofNat, Claims.borrowIn]
    omega

/-! ### The run of an operation of the arithmetic group -/

/-- Registers that are those of a write of the destination: the destination alone changed, or none where there is
none. -/
theorem registers_of_writeDest {s t : State} {writes : Bool} {rd : Reg} {v : Word}
    (hregs : ∀ j, t.readReg j = (s.writeDest (if writes then some rd else none) v).readReg j) :
    if writes then Claims.OnlyRegister s t rd v else Claims.NoRegister s t := by
  cases writes with
  | true =>
    obtain ⟨hrd, hother⟩ := onlyRegister_writeReg s rd v
    exact ⟨(hregs rd).trans hrd, fun j hj => (hregs j).trans (hother j hj)⟩
  | false => exact hregs

section
variable {op : AluOp} {writes : Bool} {g : Word → Word → Bool → Sum}
  (heffect : ∀ sf rn rd op2 s,
    aluEffect op sf rn rd op2 s = arithmeticEffect g sf rn (if writes then some rd else none) op2 s)

include heffect

/-- An operation whose effect is that of its group for the adder call `g` runs as R111 says, with the result, carry and
overflow of that call. -/
theorem arithmeticRun_of_effect {result : Word → Word → Bool → Word} {carry overflow : Word → Word → Bool → Prop}
    (hresult : ∀ a b c, (g a b c).result = result a b c)
    (hcarry : ∀ a b c, (g a b c).carry = true ↔ carry a b c)
    (hoverflow : ∀ a b c, (g a b c).overflow = true ↔ overflow a b c) :
    Claims.ArithmeticRun op writes result carry overflow := by
  intro cond sf rn rd op2 s hcond
  obtain ⟨hregs, hflags⟩ := arithmeticEffect_result g sf rn (if writes then some rd else none) op2 s
  obtain ⟨hbanks, hspsr, hstatus, hmem, hlow, hkept⟩ :=
    arithmeticEffect_frame g sf rn (if writes then some rd else none) op2 s
  have hexec : exec (.dp op cond sf rn rd op2) s =
      .next (arithmeticEffect g sf rn (if writes then some rd else none) op2 s) := by
    rw [exec_dp, conditionally_pass hcond, heffect]
  simp only [hresult] at hregs hflags
  exact ⟨_, _, _, hexec, registers_of_writeDest hregs, hcarry _ _ _, hoverflow _ _ _, ⟨hflags, hkept⟩,
    hbanks, hspsr, hstatus, hmem, fun a => by rw [hmem], hlow⟩

/-- With S = 1 and a condition that passes, its flags are those of the adder call (R111). -/
theorem exec_flags_of_effect {cond : Cond} {s : State} (hcond : s.passes cond = true) (rn rd : Reg) (op2 : Operand2) :
    let sum := g (s.readOperand rn) (s.shifterOperand op2).value (s.psr .C)
    ∃ t, exec (.dp op cond true rn rd op2) s = .next t ∧
      Claims.Flags t sum.result.msb (sum.result == 0#32) sum.carry sum.overflow := by
  obtain ⟨-, hflags⟩ := arithmeticEffect_result g true rn (if writes then some rd else none) op2 s
  exact ⟨_, by rw [exec_dp, conditionally_pass hcond, heffect], hflags rfl⟩

end

/-- Settles O39: each is encoded with its own code, and its effect is the adder on the sum. -/
theorem additionsWriteTheSum : Obligations.AdditionsWriteTheSum := by
  unfold Obligations.AdditionsWriteTheSum
  refine ⟨⟨encodedWith_code .add, arithmeticRun_of_effect (g := fun a b _ => addWithCarry a b false)
      (fun _ _ _ _ _ => rfl) (fun a b _ => addWithCarry_false_result a b)
      (fun a b _ => addWithCarry_carry_iff a b false) fun a b _ => ?_⟩,
    ⟨encodedWith_code .adc, arithmeticRun_of_effect (g := addWithCarry) (fun _ _ _ _ _ => rfl) (fun _ _ _ => rfl)
      addWithCarry_carry_iff addWithCarry_overflow_iff_msb⟩⟩
  have hoverflow := addWithCarry_overflow_iff_toInt a b false
  rwa [Bool.toNat_false, Nat.cast_zero, add_zero] at hoverflow

/-! ### Subtraction and comparison -/

/-- An operation whose effect is the adder on operand 1 and the complement of operand 2, with carry-in 1, writes their
difference (R114, R118). -/
theorem arithmeticRun_sub_of_effect {op : AluOp} {writes : Bool}
    (heffect : ∀ sf rn rd op2 s, aluEffect op sf rn rd op2 s =
      arithmeticEffect (fun a b _ => addWithCarry a (~~~b) true) sf rn (if writes then some rd else none) op2 s) :
    Claims.ArithmeticRun op writes (fun a b _ => a - b) (fun a b _ => b.toNat ≤ a.toNat)
      (fun a b _ => a.msb ≠ b.msb ∧ (a - b).msb ≠ a.msb) :=
  arithmeticRun_of_effect heffect (fun a b _ => addWithCarry_not_true_result a b)
    (fun a b _ => addWithCarry_not_true_carry_iff a b) fun a b _ => by
      rw [addWithCarry_not_overflow_iff_msb, addWithCarry_not_true_result]

/-- Settles O40: each is encoded with its own code, and its effect is the adder on the difference. -/
theorem subtractionsWriteTheDifference : Obligations.SubtractionsWriteTheDifference := by
  unfold Obligations.SubtractionsWriteTheDifference
  refine ⟨⟨encodedWith_code .sub, arithmeticRun_sub_of_effect fun _ _ _ _ _ => rfl⟩,
    ⟨encodedWith_code .sbc, arithmeticRun_of_effect (g := fun a b c => addWithCarry a (~~~b) c)
      (fun _ _ _ _ _ => rfl) addWithCarry_not_result addWithCarry_not_carry_iff fun a b c => ?_⟩⟩
  rw [addWithCarry_not_overflow_iff_msb, addWithCarry_not_result]

/-- The sign of a difference agrees with its overflow exactly when the minuend is not the smaller signed value, also
where the difference overflows (R118). -/
theorem sub_msb_eq_overflow_iff (a b : Word) :
    (addWithCarry a (~~~b) true).result.msb = (addWithCarry a (~~~b) true).overflow ↔ b.toInt ≤ a.toInt := by
  rw [Bool.eq_iff_iff, addWithCarry_not_overflow_iff_msb, addWithCarry_not_true_result]
  simp only [BitVec.msb_eq_decide, BitVec.toInt_eq_toNat_cond, BitVec.toNat_sub, ne_eq, decide_eq_decide,
    decide_eq_true_iff]
  omega

/-- CMP with S = 1 leaves in Z whether the operands are equal, in C the unsigned order, and in N and V together the
signed order (R118). -/
theorem exec_cmps {cond : Cond} {s : State} (hcond : s.passes cond = true) (rn rd : Reg) (op2 : Operand2) :
    let a := s.readOperand rn
    let b := (s.shifterOperand op2).value
    ∃ t, exec (.dp .cmp cond true rn rd op2) s = .next t ∧ (t.psr .Z = true ↔ a = b) ∧
      (t.psr .C = true ↔ b.toNat ≤ a.toNat) ∧ (t.psr .N = t.psr .V ↔ b.toInt ≤ a.toInt) := by
  obtain ⟨t, hexec, hN, hZ, hC, hV⟩ := exec_flags_of_effect (op := .cmp) (writes := false)
    (g := fun a b _ => addWithCarry a (~~~b) true) (fun _ _ _ _ _ => rfl) hcond rn rd op2
  refine ⟨t, hexec, ?_, ?_, ?_⟩
  · rw [hZ, addWithCarry_not_true_result, beq_iff_eq]
    exact sub_eq_zero
  · rw [hC, addWithCarry_not_true_carry_iff]
  · rw [hN, hV, sub_msb_eq_overflow_iff]

/-! The conditions of an order, as what they read (R61). -/

section
variable (s : State)

theorem State.passes_hi_iff : s.passes .hi = true ↔ s.psr .C = true ∧ ¬s.psr .Z = true := by
  simp [State.passes, condPasses]

theorem State.passes_ge_iff : s.passes .ge = true ↔ s.psr .N = s.psr .V := beq_iff_eq

theorem State.passes_lt_iff : s.passes .lt = true ↔ s.psr .N ≠ s.psr .V := bne_iff_ne

theorem State.passes_gt_iff : s.passes .gt = true ↔ ¬s.psr .Z = true ∧ s.psr .N = s.psr .V := by
  simp [State.passes, condPasses]

theorem State.passes_le_iff : s.passes .le = true ↔ s.psr .Z = true ∨ s.psr .N ≠ s.psr .V := by
  simp [State.passes, condPasses]

end

/-- Settles O42: CMP subtracts and writes no register, and its conditions combine equality with the two orders. -/
theorem compareOrdersItsOperands : Obligations.CompareOrdersItsOperands := by
  unfold Obligations.CompareOrdersItsOperands
  refine ⟨encodedWith_code .cmp, arithmeticRun_sub_of_effect fun _ _ _ _ _ => rfl, fun cond rn rd op2 s hcond => ?_⟩
  obtain ⟨t, hexec, hZ, hC, hNV⟩ := exec_cmps hcond rn rd op2
  have eq_iff_toNat := BitVec.toNat_inj (x := s.readOperand rn) (y := (s.shifterOperand op2).value)
  have eq_iff_toInt := BitVec.toInt_inj (x := s.readOperand rn) (y := (s.shifterOperand op2).value)
  refine ⟨t, hexec, hZ, hC, ?hi, ?ge, ?gt, ?lt, ?le⟩
  case hi =>
    rw [State.passes_hi_iff, hC, hZ, ← eq_iff_toNat]
    omega
  case ge => rw [State.passes_ge_iff, hNV]
  case gt =>
    rw [State.passes_gt_iff, hZ, hNV, ← eq_iff_toInt]
    omega
  case lt => rw [State.passes_lt_iff, ne_eq, hNV, not_le]
  case le =>
    rw [State.passes_le_iff, ne_eq, hZ, hNV, ← eq_iff_toInt]
    omega

/-! ### The testable properties -/

/-- SUBS of two registers, always executed: the flags of the difference (R114). -/
theorem exec_subs (rd : Reg) {rn rm : Reg} {s : State} {a b : Word} (hrn : s.readOperand rn = a)
    (hrm : s.readOperand rm = b) :
    let diff := addWithCarry a (~~~b) true
    ∃ t, exec (.subShi .al true rn rd 0#5 .lsl rm) s = .next t ∧
      Claims.Flags t diff.result.msb (diff.result == 0#32) diff.carry diff.overflow := by
  subst hrn hrm
  exact exec_flags_of_effect (op := .sub) (writes := true) (g := fun a b _ => addWithCarry a (~~~b) true)
    (fun _ _ _ _ _ => rfl) s.passes_al rn rd (.shi 0#5 .lsl rm)

/-- ADDS of two registers, always executed: the flags of the sum (R112). -/
theorem exec_adds (rd : Reg) {rn rm : Reg} {s : State} {a b : Word} (hrn : s.readOperand rn = a)
    (hrm : s.readOperand rm = b) :
    let sum := addWithCarry a b false
    ∃ t, exec (.addShi .al true rn rd 0#5 .lsl rm) s = .next t ∧
      Claims.Flags t sum.result.msb (sum.result == 0#32) sum.carry sum.overflow := by
  subst hrn hrm
  exact exec_flags_of_effect (op := .add) (writes := true) (g := fun a b _ => addWithCarry a b false)
    (fun _ _ _ _ _ => rfl) s.passes_al rn rd (.shi 0#5 .lsl rm)

/-- Settles O46: the flags of two differences and two sums, and no register for a comparison. -/
theorem arithmeticTestableProperties : Obligations.ArithmeticTestableProperties := by
  unfold Obligations.ArithmeticTestableProperties
  refine ⟨fun rd rn rm s hrn hrm => ?borrow, fun rd rn rm s hrn hrm => ?subOverflow,
    fun rd rn rm s hrn hrm => ?addOverflow, fun rd rn rm s hrn hrm => exec_adds rd hrn hrm,
    fun op cond sf rn rd op2 s h => exec_noRegister h cond sf rn rd op2 s⟩
  case borrow =>
    obtain ⟨t, hexec, hN, -, hC, hV⟩ := exec_subs rd hrn hrm
    exact ⟨t, hexec, hN, hC, hV⟩
  case subOverflow =>
    obtain ⟨t, hexec, -, -, -, hV⟩ := exec_subs rd hrn hrm
    exact ⟨t, hexec, hV⟩
  case addOverflow =>
    obtain ⟨t, hexec, -, -, hC, hV⟩ := exec_adds rd hrn hrm
    exact ⟨t, hexec, hV, hC⟩

end Sys2Proof.Machine
end

section
/-! SUPPORT. The contents of the dispatch table (spec/44_dispatch_table.md R131, R132): what the fields of an index say
of its entry, the fields of an index of a block, and the statement O7. -/

namespace Sys2Proof.Machine

/-! ### The entry at an index, by the fields of the index -/

/-- The operand encoding of an entry of class 00, by the I bit and the low nibble of its index (R132). -/
def encodingAt (mode : RegShiftBit7) (imm : Bool) (low : BitVec 4) : Option OperandEncoding :=
  let ty := ShiftType.ofCode (low.extractLsb' 1 2)
  if imm then some .imm
  else if !low.getLsbD 0 then some (.byImm ty)
  else if low.getLsbD 3 && mode == .fault then none
  else some (.byReg ty)

/-- An entry of class 00 has the operation and the S of its index, whatever its operand encoding (R132). -/
theorem handlerAt_of_class_eq_zero (mode : RegShiftBit7) {i : BitVec 12} (hclass : i.extractLsb' 10 2 = 0b00#2) :
    handlerAt mode i = (encodingAt mode (i.getLsbD 9) (i.extractLsb' 0 4)).map
      (Handler.mk (AluOp.ofCode (i.extractLsb' 5 4)) (i.getLsbD 4)) := by
  have hty : i.extractLsb' 1 2 = (i.extractLsb' 0 4).extractLsb' 1 2 := extractLsb'_of_low_part i (by decide)
  have hbit0 : i.getLsbD 0 = (i.extractLsb' 0 4).getLsbD 0 := getLsbD_of_low_part i (by decide)
  have hbit3 : i.getLsbD 3 = (i.extractLsb' 0 4).getLsbD 3 := getLsbD_of_low_part i (by decide)
  unfold handlerAt encodingAt
  simp only [hclass, hty, hbit0, hbit3]
  cases i.getLsbD 9 with
  | true => rfl
  | false =>
    cases (i.extractLsb' 0 4).getLsbD 0 with
    | false => rfl
    | true =>
      cases (i.extractLsb' 0 4).getLsbD 3 with
      | false => rfl
      | true => cases mode <;> rfl

theorem handlerAt_of_class_ne_zero (mode : RegShiftBit7) {i : BitVec 12} (hclass : i.extractLsb' 10 2 ≠ 0b00#2) :
    handlerAt mode i = none := by
  simp [handlerAt, hclass]

/-- The indices below 0x400 are those of class 00 (R132). -/
theorem index_class_eq_zero_iff (i : BitVec 12) : i.extractLsb' 10 2 = 0b00#2 ↔ i.toNat < 0x400 := by
  rw [← BitVec.toNat_inj, BitVec.extractLsb'_toNat, Nat.shiftRight_eq_div_pow, BitVec.toNat_ofNat]
  omega

/-! ### The two blocks of an operation -/

/-- Index `k` of the block of an operation and S, in the immediate block or the register block (R132's layout). -/
def blockIndex (op : AluOp) (sf imm : Bool) (k : Nat) : BitVec 12 :=
  BitVec.ofNat 12 (op.code.toNat * 32 + sf.toNat * 16 + (imm.toNat * 0x200 + k))

theorem blockIndex_toNat (op : AluOp) (sf imm : Bool) {k : Nat} (hk : k < 16) :
    (blockIndex op sf imm k).toNat = op.code.toNat * 32 + sf.toNat * 16 + (imm.toNat * 0x200 + k) := by
  have hop := op.code.isLt
  have hsf := sf.toNat_le
  have himm := imm.toNat_le
  rw [blockIndex, BitVec.toNat_ofNat]
  omega

/-- The fields R132 reads from an index of a block: the class, the I bit, the operation, S and the low nibble. -/
theorem blockIndex_fields (op : AluOp) (sf imm : Bool) {k : Nat} (hk : k < 16) :
    let i := blockIndex op sf imm k
    i.extractLsb' 10 2 = 0b00#2 ∧ i.getLsbD 9 = imm ∧ i.extractLsb' 5 4 = op.code ∧ i.getLsbD 4 = sf ∧
      i.extractLsb' 0 4 = BitVec.ofNat 4 k := by
  have hi := blockIndex_toNat op sf imm hk
  have hop := op.code.isLt
  have hsf := sf.toNat_le
  have himm := imm.toNat_le
  refine ⟨?opClass, ?immediateBit, ?operation, ?flagBit, ?lowNibble⟩
  case opClass =>
    rw [index_class_eq_zero_iff, hi]
    omega
  case immediateBit =>
    have hbit : (blockIndex op sf imm k).toNat / 2 ^ 9 % 2 = imm.toNat := by omega
    rw [BitVec.getLsbD, Nat.testBit_eq_decide_div_mod_eq, hbit]
    cases imm <;> rfl
  case operation =>
    rw [← BitVec.toNat_inj, BitVec.extractLsb'_toNat, Nat.shiftRight_eq_div_pow, hi]
    omega
  case flagBit =>
    have hbit : (blockIndex op sf imm k).toNat / 2 ^ 4 % 2 = sf.toNat := by omega
    rw [BitVec.getLsbD, Nat.testBit_eq_decide_div_mod_eq, hbit]
    cases sf <;> rfl
  case lowNibble =>
    rw [← BitVec.toNat_inj, BitVec.extractLsb'_toNat, Nat.shiftRight_eq_div_pow, hi, BitVec.toNat_ofNat]
    omega

/-- An entry of a block: the operand encoding of its low nibble, with the block's operation and S (R132). -/
theorem handlerAt_blockIndex (mode : RegShiftBit7) (op : AluOp) (sf imm : Bool) {k : Nat} (hk : k < 16) :
    handlerAt mode (blockIndex op sf imm k) =
      (encodingAt mode imm (BitVec.ofNat 4 k)).map (Handler.mk op sf) := by
  obtain ⟨hclass, himm, hop, hsf, hlow⟩ := blockIndex_fields op sf imm hk
  rw [handlerAt_of_class_eq_zero mode hclass, himm, hop, hsf, hlow, AluOp.ofCode_code]

/-- The sixteen low nibbles of the register block, with bit 7 of the register-shift form a fault (R132, D6). -/
theorem encodingAt_register_block :
    (List.range 16).map (fun k => encodingAt .fault false (BitVec.ofNat 4 k)) =
      [some (.byImm .lsl), some (.byReg .lsl), some (.byImm .lsr), some (.byReg .lsr), some (.byImm .asr),
        some (.byReg .asr), some (.byImm .ror), some (.byReg .ror), some (.byImm .lsl), none, some (.byImm .lsr), none,
        some (.byImm .asr), none, some (.byImm .ror), none] := by
  decide

/-- Settles O7: the entries of a block are those of their low nibbles, and from 0x400 up the class is not 00. -/
theorem dispatchTableLayout : Obligations.DispatchTableLayout := by
  unfold Obligations.DispatchTableLayout
  refine ⟨fun op sf => ⟨?registerBlock, fun k hk => ?immediateBlock⟩, fun i hi => ?unassigned⟩
  case registerBlock =>
    rw [← encodingAt_register_block, List.map_map]
    refine List.map_congr_left fun k hk => ?_
    simpa [blockIndex] using handlerAt_blockIndex .fault op sf false (List.mem_range.1 hk)
  case immediateBlock => exact handlerAt_blockIndex .fault op sf true hk
  case unassigned =>
    refine handlerAt_of_class_ne_zero .fault fun hclass => ?_
    exact absurd ((index_class_eq_zero_iff i).1 hclass) (by omega)

end Sys2Proof.Machine
end

section
/-! SUPPORT. The step (spec/45_fetch_execute.md R140 to R149): where a step fetches, what the fetched word decodes to at
its entry of the dispatch table, what executing it can do, and the statements O9, O10, O11, O17, O21, O22, O24, O25, O54
and O55. -/

namespace Sys2Proof.Machine

/-! ### What a word decodes to, by its condition and its entry of the dispatch table -/

/-- A handler takes from the word the operand 2 that the decoder reads there (R131). -/
theorem OperandEncoding.operand2_ofOperand2 {w : Word} {op2 : Operand2}
    (h : operand2OfWord Config.regShiftBit7Set w = some op2) : (OperandEncoding.ofOperand2 op2).operand2 w = op2 := by
  simp only [operand2OfWord, Config.regShiftBit7Set] at h
  split at h
  · cases h
    rfl
  · split at h
    · cases h
      rfl
    · split at h
      · cases h
        rfl
      · cases h

/-- The decoder and the dispatch table agree on every word (R46, R140): no condition and the reserved row, no entry and
an unassigned row, or an entry and the data-processing instruction of its handler. -/
theorem decodeWord_handlerAt_cases (w : Word) :
    (Cond.ofCode (w.extractLsb' 28 4) = none ∧ decodeWord w = .reservedCondition w) ∨
      ∃ cond, Cond.ofCode (w.extractLsb' 28 4) = some cond ∧
        ((handlerAt Config.regShiftBit7Set (dispatchIndex w) = none ∧
            (decodeWord w = .unassignedClass01 w ∨ decodeWord w = .unassignedClass10 w ∨
              decodeWord w = .unassignedClass11 w ∨ decodeWord w = .unassignedShiftBit7 w)) ∨
          ∃ h, handlerAt Config.regShiftBit7Set (dispatchIndex w) = some h ∧
            decodeWord w = .dp h.op cond h.sf (w.extractLsb' 16 4).toFin (w.extractLsb' 12 4).toFin
              (h.enc.operand2 w)) := by
  cases hcond : Cond.ofCode (w.extractLsb' 28 4) with
  | none => exact .inl ⟨rfl, by simp [decodeWord, decodeWith, hcond]⟩
  | some cond =>
    refine .inr ⟨cond, rfl, ?_⟩
    rw [handlerAt_dispatchIndex]
    obtain ⟨hcode, -⟩ | ⟨hclass, hrow⟩ | ⟨hform, hrow⟩ | ⟨-, hclass, hform, -⟩ := decodeWord_cases w
    · rw [(Cond.ofCode_eq_none _).2 hcode] at hcond
      cases hcond
    · exact .inl ⟨if_neg hclass, hrow.imp_right (.imp_right .inl)⟩
    · refine .inl ⟨?_, .inr (.inr (.inr hrow))⟩
      rw [(operand2OfWord_eq_none w).2 hform, Option.map_none, ite_self]
    · obtain ⟨op2, hop2⟩ := Option.ne_none_iff_exists'.1 (mt (operand2OfWord_eq_none w).1 hform)
      refine .inr ⟨_, by rw [if_pos hclass, hop2, Option.map_some], ?_⟩
      rw [decodeWord_eq_dp hcond hclass hop2, OperandEncoding.operand2_ofOperand2 hop2]

/-- A data-processing instruction determines its condition. -/
theorem dp_cond_inj {op op' : AluOp} {cond cond' : Cond} {sf sf' : Bool} {rn rn' rd rd' : Reg} {o o' : Operand2}
    (h : Instr.dp op cond sf rn rd o = .dp op' cond' sf' rn' rd' o') : cond = cond' := by
  obtain ⟨hcode, -⟩ := encodedWith_code op cond sf rn rd o
  obtain ⟨hcode', -⟩ := encodedWith_code op' cond' sf' rn' rd' o'
  rw [h, hcode'] at hcode
  rw [← Option.some_inj, ← Cond.ofCode_code, ← hcode, Cond.ofCode_code]

/-! ### What executing a word can do -/

theorem State.evaluates_eq (s : State) (w : Word) :
    s.evaluates w = (Cond.ofCode (w.extractLsb' 28 4)).map s.passes := rfl

/-- Each of the four unassigned rows has the effect of its word (R152). -/
theorem exec_unassigned {i : Instr} {w : Word}
    (hrow : i = .unassignedClass01 w ∨ i = .unassignedClass10 w ∨ i = .unassignedClass11 w ∨
      i = .unassignedShiftBit7 w) (s : State) : exec i s = .next (unassignedEffect w s) := by
  obtain rfl | rfl | rfl | rfl := hrow <;> rfl

theorem unassignedEffect_skip {w : Word} {s : State} (h : s.evaluates w = some false) : unassignedEffect w s = s := by
  rw [unassignedEffect, h]

theorem unassignedEffect_fault {w : Word} {s : State} (h : s.evaluates w = some true) :
    unassignedEffect w s = s.raiseDecodeFault .unassignedIndex w := by
  rw [unassignedEffect, h]

/-- What the instruction of a word does, by the condition and the entry of the dispatch table (R140 (3) to (6), R155):
the reserved-condition fault, nothing, the unassigned-index fault, or the handler's effect. -/
theorem exec_decodeWord_cases (w : Word) (s : State) :
    (s.evaluates w = none ∧ exec (decodeWord w) s = .next (s.raiseDecodeFault .reservedCondition w)) ∨
      (s.evaluates w = some false ∧ exec (decodeWord w) s = .next s) ∨
      (s.evaluates w = some true ∧ handlerAt Config.regShiftBit7Set (dispatchIndex w) = none ∧
        exec (decodeWord w) s = .next (s.raiseDecodeFault .unassignedIndex w)) ∨
      (s.evaluates w = some true ∧ ∃ h cond, handlerAt Config.regShiftBit7Set (dispatchIndex w) = some h ∧
        decodeWord w = .dp h.op cond h.sf (w.extractLsb' 16 4).toFin (w.extractLsb' 12 4).toFin (h.enc.operand2 w) ∧
        s.passes cond = true ∧ exec (decodeWord w) s = .next (h.run w s)) := by
  obtain ⟨hcode, hrow⟩ | ⟨cond, hcode, hentry⟩ := decodeWord_handlerAt_cases w
  · exact .inl ⟨by rw [State.evaluates_eq, hcode, Option.map_none], by rw [hrow]; rfl⟩
  · have heval : s.evaluates w = some (s.passes cond) := by rw [State.evaluates_eq, hcode, Option.map_some]
    refine .inr ?_
    cases hcond : s.passes cond with
    | false =>
      rw [hcond] at heval
      refine .inl ⟨heval, ?_⟩
      obtain ⟨-, hrow⟩ | ⟨h, -, hdp⟩ := hentry
      · rw [exec_unassigned hrow, unassignedEffect_skip heval]
      · rw [hdp, exec_dp, conditionally_fail hcond]
    | true =>
      rw [hcond] at heval
      obtain ⟨hnone, hrow⟩ | ⟨h, hsome, hdp⟩ := hentry
      · exact .inr (.inl ⟨heval, hnone, by rw [exec_unassigned hrow, unassignedEffect_fault heval]⟩)
      · exact .inr (.inr ⟨heval, h, cond, hsome, hdp, hcond, by rw [hdp, exec_dp, conditionally_pass hcond]; rfl⟩)

/-! ### The step over the dispatch table -/

theorem tableStep_halted {s : State} {cause : DecodeFault} {insn addr : Word} (h : s.status = .halted cause insn addr) :
    tableStep s = s := by
  simp [tableStep, h]

/-- A running engine's step over the table is what executing the fetched word does. -/
theorem exec_fetchedInstr_eq_tableStep {s : State} (hrunning : s.status = .running) :
    exec s.fetchedInstr s = .next (tableStep s) := by
  rw [State.fetchedInstr, tableStep, hrunning]
  obtain ⟨heval, hexec⟩ | ⟨heval, hexec⟩ | ⟨heval, hnone, hexec⟩ | ⟨heval, h, cond, hsome, -, -, hexec⟩ :=
    exec_decodeWord_cases s.fetchedWord s
  · simp only [heval, hexec]
  · simp only [heval, hexec]
  · simp only [heval, hnone, hexec]
  · simp only [heval, hsome, hexec]

/-- Settles O9: a halted engine does nothing in either step, and the decoder agrees with the table on every word. -/
theorem stepIsTheDispatchTableStep : Obligations.StepIsTheDispatchTableStep := by
  unfold Obligations.StepIsTheDispatchTableStep
  intro s
  cases hstatus : s.status with
  | halted cause insn addr => rw [step_halted hstatus, tableStep_halted hstatus]
  | running => rw [step_running hstatus, exec_fetchedInstr_eq_tableStep hstatus]

/-- Settles O11: the two faults are those that word and flags call for, and an execution keeps the engine running. -/
theorem everyStepSkipsExecutesOrFaults : Obligations.EveryStepSkipsExecutesOrFaults := by
  unfold Obligations.EveryStepSkipsExecutesOrFaults
  intro s hrunning
  rw [step_running hrunning]
  obtain ⟨heval, hexec⟩ | ⟨heval, hexec⟩ | ⟨heval, hnone, hexec⟩ | ⟨-, h, cond, -, hdp, hcond, hexec⟩ :=
    exec_decodeWord_cases s.fetchedWord s
  · exact ⟨_, hexec, .inr (.inr ⟨.reservedCondition, heval, rfl⟩)⟩
  · exact ⟨s, hexec, .inl ⟨heval, rfl⟩⟩
  · exact ⟨_, hexec, .inr (.inr ⟨.unassignedIndex, ⟨heval, hnone⟩, rfl⟩)⟩
  · refine ⟨_, hexec, .inr (.inl ⟨_, cond, _, _, _, _, hdp, hcond, rfl, ?_⟩)⟩
    obtain ⟨-, -, hstatus, -⟩ := aluEffect_frame h.op h.sf _ _ (h.enc.operand2 s.fetchedWord) s
    exact hstatus.trans hrunning

/-- Settles O17: a false condition is no fault and no execution, in each kind of row. -/
theorem skippedInstructionChangesNothing : Obligations.SkippedInstructionChangesNothing := by
  unfold Obligations.SkippedInstructionChangesNothing
  refine ⟨fun s hrunning heval => ?step, fun op cond sf rn rd op2 s hcond => ?dataProcessing,
    fun insn s heval => ?unassigned⟩
  case step =>
    rw [stepIsTheDispatchTableStep s]
    simp [tableStep, hrunning, heval]
  case dataProcessing => rw [exec_dp, conditionally_fail hcond]
  case unassigned =>
    have hskip {i : Instr} (hrow : i = .unassignedClass01 insn ∨ i = .unassignedClass10 insn ∨
        i = .unassignedClass11 insn ∨ i = .unassignedShiftBit7 insn) : exec i s = .next s := by
      rw [exec_unassigned hrow, unassignedEffect_skip heval]
    exact ⟨hskip (.inl rfl), hskip (.inr (.inl rfl)), hskip (.inr (.inr (.inl rfl))), hskip (.inr (.inr (.inr rfl)))⟩

/-! ### The trace observer -/

/-- An instruction executes exactly where the condition of its word passes and the table has an entry (R147, D23). -/
theorem executes_iff_passes_and_entry (w : Word) (s : State) :
    (∃ op cond sf rn rd op2, decodeWord w = .dp op cond sf rn rd op2 ∧ s.passes cond = true) ↔
      s.evaluates w = some true ∧ (handlerAt Config.regShiftBit7Set (dispatchIndex w)).isSome = true := by
  have isDp : (∃ op cond sf rn rd op2, decodeWord w = .dp op cond sf rn rd op2 ∧ s.passes cond = true) →
      ∃ op cond sf rn rd op2, decodeWord w = .dp op cond sf rn rd op2 :=
    fun ⟨op, cond, sf, rn, rd, op2, hdp, _⟩ => ⟨op, cond, sf, rn, rd, op2, hdp⟩
  obtain ⟨hcode, hrow⟩ | ⟨cond, hcode, ⟨hnone, hrow⟩ | ⟨h, hsome, hdp⟩⟩ := decodeWord_handlerAt_cases w
  · refine iff_of_false (fun hx => not_isDp_of_faulting (.inl hrow) (isDp hx)) fun ⟨heval, _⟩ => ?_
    simp [State.evaluates_eq, hcode] at heval
  · refine iff_of_false (fun hx => not_isDp_of_faulting (.inr hrow) (isDp hx)) fun ⟨_, hentry⟩ => ?_
    simp [hnone] at hentry
  · rw [State.evaluates_eq, hcode, Option.map_some, Option.some_inj, hsome]
    refine ⟨fun ⟨_, cond', _, _, _, _, hdp', hcond⟩ => ⟨?_, rfl⟩, fun ⟨hcond, _⟩ => ⟨_, cond, _, _, _, _, hdp, hcond⟩⟩
    rw [dp_cond_inj (hdp.symm.trans hdp'), hcond]

/-- Settles O22: the observer's test is that of an execution, and what it passes on is the fetched word. -/
theorem tracedWordIsTheExecutedOne : Obligations.TracedWordIsTheExecutedOne := by
  unfold Obligations.TracedWordIsTheExecutedOne
  intro s
  rw [State.fetchedInstr, executes_iff_passes_and_entry, State.traced]
  cases s.status with
  | halted cause insn addr => simp
  | running =>
    by_cases hexecutes : s.evaluates s.fetchedWord = some true ∧
        (handlerAt Config.regShiftBit7Set (dispatchIndex s.fetchedWord)).isSome = true
    · simp only [if_pos hexecutes, true_and]
      exact ⟨fun w hw => (Option.some.inj hw).symm, iff_of_true (Option.some_ne_none _) hexecutes⟩
    · simp only [if_neg hexecutes, true_and]
      exact ⟨fun w hw => (by cases hw), iff_of_false (fun hne => hne rfl) hexecutes⟩

/-! ### What a step cannot see -/

/-- The state with other shadow registers, saved PSRs and memory. -/
def State.withInert (s : State) (b : Banks) (p : SavedPsrs) (m : List Host.Cell) : State :=
  { s with banks := b, spsr := p, mem := m }

/-- No operation reads the shadow registers, the saved PSRs or memory (R5, R11, R17). -/
theorem aluEffect_withInert (op : AluOp) (sf : Bool) (rn rd : Reg) (op2 : Operand2) (s : State) (b : Banks)
    (p : SavedPsrs) (m : List Host.Cell) :
    aluEffect op sf rn rd op2 (s.withInert b p m) = (aluEffect op sf rn rd op2 s).withInert b p m := by
  cases op <;> cases sf <;> rfl

/-- Where the same word is fetched, replacing the shadow registers, the saved PSRs and memory before a step is
replacing them after it. -/
theorem tableStep_withInert (s : State) (b : Banks) (p : SavedPsrs) (m : List Host.Cell)
    (hword : (s.withInert b p m).fetchedWord = s.fetchedWord) :
    tableStep (s.withInert b p m) = (tableStep s).withInert b p m := by
  have hstatus : (s.withInert b p m).status = s.status := rfl
  have heval : (s.withInert b p m).evaluates s.fetchedWord = s.evaluates s.fetchedWord := rfl
  simp only [tableStep, hstatus, hword, heval]
  cases s.status with
  | halted cause insn addr => rfl
  | running =>
    cases s.evaluates s.fetchedWord with
    | none => rfl
    | some passes =>
      cases passes with
      | false => rfl
      | true =>
        cases handlerAt Config.regShiftBit7Set (dispatchIndex s.fetchedWord) with
        | none => rfl
        | some h => exact aluEffect_withInert ..

/-- Settles O25: the second state is the first with other inert parts, which a step leaves aside. -/
theorem stepDependsOnlyOnRegistersPsrAndWord : Obligations.StepDependsOnlyOnRegistersPsrAndWord := by
  unfold Obligations.StepDependsOnlyOnRegistersPsrAndWord
  intro s s' hrunning hrunning' hx hcpsr hword
  have hs' : s' = s.withInert s'.banks s'.spsr s'.mem := by
    rw [State.withInert, hx, hcpsr, hrunning, ← hrunning']
  have hstep : tableStep s' = (tableStep s).withInert s'.banks s'.spsr s'.mem := by
    rw [← tableStep_withInert s _ _ _ (by rw [← hs', hword]), ← hs']
  refine ⟨_, _, stepIsTheDispatchTableStep s, stepIsTheDispatchTableStep s', ?_⟩
  rw [hstep]
  exact ⟨rfl, rfl, rfl⟩

/-! ### Register 15 -/

/-- An operation changes no register but its destination. -/
theorem aluEffect_readReg_ne (op : AluOp) (sf : Bool) (rn rd : Reg) (op2 : Operand2) (s : State) {j : Reg}
    (hj : j ≠ rd) : (aluEffect op sf rn rd op2 s).readReg j = s.readReg j := by
  have hdest (v : Word) : (s.writeDest (if op.writesDest then some rd else none) v).readReg j = s.readReg j := by
    cases op.writesDest with
    | false => rfl
    | true => exact s.readReg_writeReg_ne rd j v hj
  obtain ⟨-, f, heffect⟩ | ⟨-, g, heffect⟩ := aluEffect_cases op sf rn rd op2 s
  · obtain ⟨hregs, -⟩ := logicalEffect_result f sf rn (if op.writesDest then some rd else none) op2 s
    rw [heffect, hregs, hdest]
  · obtain ⟨hregs, -⟩ := arithmeticEffect_result g sf rn (if op.writesDest then some rd else none) op2 s
    rw [heffect, hregs, hdest]

/-- A step keeps memory and the CPSR below the flags. -/
theorem step_mem_and_cpsr_low {s t : State} (h : step s = .next t) :
    t.mem = s.mem ∧ t.cpsr.extractLsb' 0 28 = s.cpsr.extractLsb' 0 28 := by
  obtain ⟨-, op, -, sf, rn, rd, op2, -, -, rfl⟩ | rfl | ⟨-, cause, insn, rfl⟩ := step_cases h
  · obtain ⟨-, -, -, hmem, hlow, -⟩ := aluEffect_frame op sf rn rd op2 s
    exact ⟨hmem, hlow⟩
  · exact ⟨rfl, rfl⟩
  · exact ⟨rfl, rfl⟩

/-- The T bit is below the flags (R13). -/
theorem State.psr_T_of_cpsr_low {s t : State} (h : t.cpsr.extractLsb' 0 28 = s.cpsr.extractLsb' 0 28) :
    t.psr .T = s.psr .T := by
  have hlow (p : Word) : Psr.readBit p .T = (p.extractLsb' 0 28).getLsbD 5 := getLsbD_of_low_part p (by decide)
  rw [State.psr, State.psr, hlow, hlow, h]

/-- Settles O21: a step that changes register 15 executed an instruction whose destination it is, and no step changes
what the fetch reads beside it. -/
theorem programCounterIsNotAdvanced : Obligations.ProgramCounterIsNotAdvanced := by
  unfold Obligations.ProgramCounterIsNotAdvanced
  refine fun s t hstep => ⟨fun hchange => ?changed, fun hkept => ?refetched⟩
  case changed =>
    obtain ⟨hrunning, op, cond, sf, rn, rd, op2, hinstr, hcond, rfl⟩ | rfl | ⟨-, cause, insn, rfl⟩ := step_cases hstep
    · have hrd : rd = 15 := by
        by_contra hne
        exact hchange (aluEffect_readReg_ne op sf rn rd op2 s (Ne.symm hne))
      have hwrites : op.writesDest = true := by
        by_contra hnot
        exact hchange (aluEffect_noRegister (Bool.eq_false_of_not_eq_true hnot) sf rn rd op2 s 15)
      rw [hrd] at hinstr
      exact ⟨hrunning, op, cond, sf, rn, op2, hinstr, hcond, hwrites⟩
    · exact absurd rfl hchange
    · exact absurd rfl hchange
  case refetched =>
    obtain ⟨hmem, hlow⟩ := step_mem_and_cpsr_low hstep
    have haddr : t.fetchAddr = s.fetchAddr := by
      rw [State.fetchAddr, hkept, State.psr_T_of_cpsr_low hlow, State.fetchAddr]
    exact ⟨haddr, by rw [State.fetchedWord, hmem, haddr, State.fetchedWord]⟩

/-- Settles O55: the host acts on the state that the step leaves, and a write of register 15 keeps the T bit. -/
theorem referenceHostAdvancesByFour : Obligations.ReferenceHostAdvancesByFour := by
  unfold Obligations.ReferenceHostAdvancesByFour
  intro s t hstep
  have hunder : stepUnder State.hostAdvance s = .next t.hostAdvance := by rw [stepUnder, hstep]
  rw [hunder, State.hostAdvance]
  cases hstatus : t.status with
  | running =>
    refine ⟨fun _ => ⟨rfl, fun hT => ?_⟩, fun hne => absurd rfl hne⟩
    simp [State.fetchAddr, hT, fetchAddress]
  | halted cause insn addr => exact ⟨fun hrunning => (by cases hrunning), fun _ => rfl⟩

/-! ### The fetch address -/

/-- Clearing the low `k` bits of a word rounds it down to a multiple of `2 ^ k`. -/
theorem toNat_and_allOnes_shiftLeft (w : Word) (k : Nat) :
    (w &&& BitVec.allOnes 32 <<< k).toNat = w.toNat / 2 ^ k * 2 ^ k := by
  have hle : w.toNat / 2 ^ k * 2 ^ k ≤ w.toNat := Nat.div_mul_le_self _ _
  rw [← BitVec.shiftLeft_ushiftRight, BitVec.toNat_shiftLeft, BitVec.toNat_ushiftRight, Nat.shiftRight_eq_div_pow,
    Nat.shiftLeft_eq, Nat.mod_eq_of_lt (hle.trans_lt w.isLt)]

/-- Settles O24: the two masks clear the low two bits and the low bit, and the step fetches at that address. -/
theorem fetchAddressIsAligned : Obligations.FetchAddressIsAligned := by
  unfold Obligations.FetchAddressIsAligned
  exact ⟨fun pc => ⟨rfl, rfl, toNat_and_allOnes_shiftLeft pc 2, toNat_and_allOnes_shiftLeft pc 1⟩,
    fun s hrunning => step_running hrunning⟩

/-! ### The bytes at an aligned address -/

/-- The four bytes of a word at a multiple of 4 do not wrap around the address space. -/
theorem toNat_add_of_aligned {a : Word} (haligned : a.extractLsb' 0 2 = 0#2) {k : Nat} (hk : k < 4) :
    (a + BitVec.ofNat 32 k).toNat = a.toNat + k := by
  have hmod : a.toNat % 4 = 0 := by simpa using congrArg BitVec.toNat haligned
  have hlt := a.isLt
  rw [BitVec.toNat_add, BitVec.toNat_ofNat]
  omega

/-- A fetch at a multiple of 4 reads the four bytes at rising addresses (R33, D13). -/
theorem Memory.fetchWord_of_aligned (m : List Host.Cell) {a : Word} (haligned : a.extractLsb' 0 2 = 0#2) :
    Memory.fetchWord m a = wordOfBytes (Memory.read m a.toNat) (Memory.read m (a.toNat + 1))
      (Memory.read m (a.toNat + 2)) (Memory.read m (a.toNat + 3)) := by
  rw [Memory.fetchWord, if_pos haligned, toNat_add_of_aligned haligned (by decide : 1 < 4),
    toNat_add_of_aligned haligned (by decide : 2 < 4), toNat_add_of_aligned haligned (by decide : 3 < 4)]

/-- Settles O10: the fetched word is the word of the four bytes, and the step adds nothing around `exec`. -/
theorem stepRunsTheDecodedInstruction : Obligations.StepRunsTheDecodedInstruction := by
  unfold Obligations.StepRunsTheDecodedInstruction
  refine ⟨fun s i hrunning haligned hdecode => ?_, fun s hrunning => step_running hrunning⟩
  rw [decode, ← Memory.fetchWord_of_aligned s.mem haligned] at hdecode
  cases hdecode
  exact step_running hrunning

/-- A byte read after a word is stored at a multiple of 4: one of the word's four, or the byte held before. -/
theorem Memory.read_writeWord {m : List Host.Cell} (hwf : Memory.wf m = true) {a : Word}
    (haligned : a.extractLsb' 0 2 = 0#2) (w : Word) (x : Nat) :
    Memory.read (Memory.writeWord m a w) x =
      if x = a.toNat + 3 then byteOfWord w 3 else if x = a.toNat + 2 then byteOfWord w 2
      else if x = a.toNat + 1 then byteOfWord w 1 else if x = a.toNat then byteOfWord w 0 else Memory.read m x := by
  have hwf0 := Memory.wf_write m a (byteOfWord w 0) hwf
  have hwf1 := Memory.wf_write _ (a + 1#32) (byteOfWord w 1) hwf0
  have hwf2 := Memory.wf_write _ (a + 2#32) (byteOfWord w 2) hwf1
  rw [Memory.writeWord, Memory.read_write _ _ _ 0 hwf2, Memory.read_write _ _ _ 0 hwf1, Memory.read_write _ _ _ 0 hwf0,
    Memory.read_write _ _ _ 0 hwf, toNat_add_of_aligned haligned (by decide : 1 < 4),
    toNat_add_of_aligned haligned (by decide : 2 < 4), toNat_add_of_aligned haligned (by decide : 3 < 4)]

theorem wordOfBytes_byteOfWord (w : Word) :
    wordOfBytes (byteOfWord w 0) (byteOfWord w 1) (byteOfWord w 2) (byteOfWord w 3) = w := by
  unfold wordOfBytes byteOfWord
  iterate 3 rw [BitVec.extractLsb'_append_extractLsb'_eq_extractLsb' (by rfl)]
  exact BitVec.extractLsb'_eq_self

/-- A word stored at a multiple of 4 is fetched there. -/
theorem Memory.fetchWord_writeWord {m : List Host.Cell} (hwf : Memory.wf m = true) {a : Word}
    (haligned : a.extractLsb' 0 2 = 0#2) (w : Word) : Memory.fetchWord (Memory.writeWord m a w) a = w := by
  rw [Memory.fetchWord_of_aligned _ haligned]
  simp [Memory.read_writeWord hwf haligned, wordOfBytes_byteOfWord]

/-! ### Placing a word at the fetch -/

/-- With bit 1 of register 15 clear the fetch address is a multiple of 4, whatever T is (R141). -/
theorem fetchAddress_aligned (pc : Word) (t : Bool) :
    (fetchAddress (pc &&& 0xFFFFFFFD#32) t).extractLsb' 0 2 = 0#2 := by
  cases t with
  | false => simp [fetchAddress, BitVec.extractLsb'_and]
  | true => simp [fetchAddress, BitVec.extractLsb'_and, BitVec.and_assoc]

/-- What placing a word leaves: a running engine, a fetch address that is a multiple of 4, and the word stored there
(log 18). -/
theorem State.placeAtFetch_spec (s : State) (w : Word) :
    let t := s.placeAtFetch w
    t.status = .running ∧ t.fetchAddr.extractLsb' 0 2 = 0#2 ∧ t.mem = Memory.writeWord s.mem t.fetchAddr w := by
  by_cases haligned : s.fetchAddr.extractLsb' 0 2 = 0#2
  · rw [State.placeAtFetch, if_pos haligned]
    exact ⟨rfl, haligned, rfl⟩
  · rw [State.placeAtFetch, if_neg haligned]
    refine ⟨rfl, ?_, rfl⟩
    show (s.writeReg 15 (s.readReg 15 &&& 0xFFFFFFFD#32)).fetchAddr.extractLsb' 0 2 = 0#2
    rw [State.fetchAddr, State.readReg_writeReg_self, fetchAddress_aligned]

/-- Settles O54: the word is stored at an aligned fetch address, so it is fetched from there, and the store changes no
other byte. -/
theorem placedWordIsFetchedAndRun : Obligations.PlacedWordIsFetchedAndRun := by
  unfold Obligations.PlacedWordIsFetchedAndRun
  intro s w hwf
  have hword : BitVec.ofNat 32 (w % 2 ^ 32) = BitVec.ofNat 32 w := BitVec.eq_of_toNat_eq (by simp)
  obtain ⟨hrunning, haligned, hmem⟩ := s.placeAtFetch_spec (BitVec.ofNat 32 w)
  rw [State.withFetchWord, hword]
  have hfetched : (s.placeAtFetch (BitVec.ofNat 32 w)).fetchedWord = BitVec.ofNat 32 w := by
    rw [State.fetchedWord, hmem, Memory.fetchWord_writeWord hwf haligned]
  refine ⟨hfetched, ?_, ?_, fun a ha => ?_⟩
  · rw [step_running hrunning, State.fetchedInstr, hfetched]
  · rw [hmem, Memory.wf_writeWord _ _ _ hwf]
  · rw [hmem, Memory.read_writeWord hwf haligned, if_neg (by omega), if_neg (by omega), if_neg (by omega),
      if_neg (by omega)]

end Sys2Proof.Machine
end

section
/-! SUPPORT. Decoding and encoding as inverses (spec/30_encoding.md R41 to R46, R53, R54, R59): the decoder's equation
for each row of the opcode table, which words a faulting row stands for, the word of the fields read from a word, and
the statements O1, O2, O3 and O5. -/

namespace Sys2Proof

/-! ### The decoder, row by row -/

theorem decodeWord_of_reserved {w : Word} (h : w.extractLsb' 28 4 = 0b1111#4) :
    decodeWord w = .reservedCondition w := by
  simp [decodeWord, decodeWith, (Cond.ofCode_eq_none _).2 h]

section
variable {w : Word} {cond : Cond} (hcond : Cond.ofCode (w.extractLsb' 28 4) = some cond)
include hcond

theorem decodeWord_of_class01 (h : w.extractLsb' 26 2 = 0b01#2) : decodeWord w = .unassignedClass01 w := by
  simp [decodeWord, decodeWith, hcond, h]

theorem decodeWord_of_class10 (h : w.extractLsb' 26 2 = 0b10#2) : decodeWord w = .unassignedClass10 w := by
  simp [decodeWord, decodeWith, hcond, h]

theorem decodeWord_of_class11 (h : w.extractLsb' 26 2 = 0b11#2) : decodeWord w = .unassignedClass11 w := by
  simp [decodeWord, decodeWith, hcond, h]

theorem decodeWord_of_shiftBit7 (hclass : w.extractLsb' 26 2 = 0b00#2)
    (hform : w.getLsbD 25 = false ∧ w.getLsbD 4 = true ∧ w.getLsbD 7 = true) :
    decodeWord w = .unassignedShiftBit7 w := by
  simp [decodeWord, decodeWith, hcond, hclass, (operand2OfWord_eq_none w).2 hform]

end

/-! Operand 2 of a word, format by format (R42, R46). -/

section
variable {w : Word} {ty : ShiftType}

theorem operand2OfWord_of_imm (h25 : w.getLsbD 25 = true) :
    operand2OfWord Config.regShiftBit7Set w = some (.imm (w.extractLsb' 8 4) (w.extractLsb' 0 8)) := by
  simp only [operand2OfWord, h25, if_true]

theorem operand2OfWord_of_shi (h25 : w.getLsbD 25 = false) (hty : w.extractLsb' 5 2 = ty.code)
    (h4 : w.getLsbD 4 = false) :
    operand2OfWord Config.regShiftBit7Set w = some (.shi (w.extractLsb' 7 5) ty (w.extractLsb' 0 4).toFin) := by
  simp only [operand2OfWord, h25, h4, hty, ShiftType.ofCode_code, Bool.not_false, Bool.false_eq_true, if_true,
    if_false]

theorem operand2OfWord_of_shr (h25 : w.getLsbD 25 = false) (hty : w.extractLsb' 5 2 = ty.code)
    (h4 : w.getLsbD 4 = true) (h7 : w.getLsbD 7 = false) :
    operand2OfWord Config.regShiftBit7Set w = some (.shr (w.extractLsb' 8 4).toFin ty (w.extractLsb' 0 4).toFin) := by
  simp only [operand2OfWord, h25, h4, h7, hty, ShiftType.ofCode_code, Bool.not_false, Bool.not_true, Bool.false_eq_true,
    if_true, if_false]

end

/-- Settles O3: each clause is the decoder's equation for its row or its format. -/
theorem decodingFollowsTheProcedure : Obligations.DecodingFollowsTheProcedure := by
  unfold Obligations.DecodingFollowsTheProcedure
  refine fun w => ⟨decodeWord_of_reserved, fun cond hcode => ?_⟩
  have hcond : Cond.ofCode (w.extractLsb' 28 4) = some cond := by rw [hcode, Cond.ofCode_code]
  refine ⟨decodeWord_of_class01 hcond, decodeWord_of_class10 hcond, decodeWord_of_class11 hcond,
    fun hclass h25 h4 h7 => decodeWord_of_shiftBit7 hcond hclass ⟨h25, h4, h7⟩, fun op hclass hop => ?_⟩
  have hform {op2 : Operand2} (h : operand2OfWord Config.regShiftBit7Set w = some op2) :
      decodeWord w = .dp op cond (w.getLsbD 20) (w.extractLsb' 16 4).toFin (w.extractLsb' 12 4).toFin op2 := by
    rw [decodeWord_eq_dp hcond hclass h, hop, AluOp.ofCode_code]
  exact ⟨fun h25 => hform (operand2OfWord_of_imm h25), fun ty h25 hty =>
    ⟨fun h4 => hform (operand2OfWord_of_shi h25 hty h4), fun h4 h7 => hform (operand2OfWord_of_shr h25 hty h4 h7)⟩⟩

/-! ### Which words a faulting row stands for -/

theorem hasCondition_iff (w : Word) : hasCondition w = true ↔ ∃ cond, Cond.ofCode (w.extractLsb' 28 4) = some cond := by
  rw [← Option.ne_none_iff_exists', ne_eq, Cond.ofCode_eq_none, hasCondition, bne_iff_ne]

/-- Bits 27:25 are 000: the class is 00 and I is 0. -/
theorem extractLsb'_25_3_eq_zero_iff (w : Word) :
    w.extractLsb' 25 3 = 0b000#3 ↔ w.extractLsb' 26 2 = 0b00#2 ∧ w.getLsbD 25 = false := by
  have hsplit : w.extractLsb' 25 3 = w.extractLsb' 26 2 ++ BitVec.ofBool (w.getLsbD 25) := by
    apply extractLsb'_eq_of_getLsbD
    intro k hk
    rw [BitVec.getLsbD_append]
    match k, hk with
    | 0, _ => simp
    | 1, _ => simp
    | 2, _ => simp
  rw [hsplit]
  generalize w.extractLsb' 26 2 = cls
  generalize w.getLsbD 25 = imm
  revert cls imm
  decide

section
variable (w : Word)

theorem wellFormed_reservedCondition_iff :
    (Instr.reservedCondition w).wellFormed = true ↔ w.extractLsb' 28 4 = 0b1111#4 := beq_iff_eq

theorem wellFormed_unassignedClass01_iff : (Instr.unassignedClass01 w).wellFormed = true ↔
    (∃ cond, Cond.ofCode (w.extractLsb' 28 4) = some cond) ∧ w.extractLsb' 26 2 = 0b01#2 := by
  rw [← hasCondition_iff]
  simp [Instr.wellFormed]

theorem wellFormed_unassignedClass10_iff : (Instr.unassignedClass10 w).wellFormed = true ↔
    (∃ cond, Cond.ofCode (w.extractLsb' 28 4) = some cond) ∧ w.extractLsb' 26 2 = 0b10#2 := by
  rw [← hasCondition_iff]
  simp [Instr.wellFormed]

theorem wellFormed_unassignedClass11_iff : (Instr.unassignedClass11 w).wellFormed = true ↔
    (∃ cond, Cond.ofCode (w.extractLsb' 28 4) = some cond) ∧ w.extractLsb' 26 2 = 0b11#2 := by
  rw [← hasCondition_iff]
  simp [Instr.wellFormed]

theorem wellFormed_unassignedShiftBit7_iff : (Instr.unassignedShiftBit7 w).wellFormed = true ↔
    (∃ cond, Cond.ofCode (w.extractLsb' 28 4) = some cond) ∧ w.extractLsb' 26 2 = 0b00#2 ∧
      w.getLsbD 25 = false ∧ w.getLsbD 4 = true ∧ w.getLsbD 7 = true := by
  rw [← hasCondition_iff]
  simp only [Instr.wellFormed, Bool.and_eq_true, beq_iff_eq, extractLsb'_25_3_eq_zero_iff]
  tauto

end

/-- Settles O1: an encoded data-processing instruction has its own fields, and a faulting row is its own word, which
well-formedness puts in that row. -/
theorem decodeInvertsEncode : Obligations.DecodeInvertsEncode := by
  unfold Obligations.DecodeInvertsEncode
  intro i hwf
  obtain ⟨op, cond, sf, rn, rd, op2, rfl⟩ | ⟨w, rfl⟩ | ⟨w, rfl | rfl | rfl | rfl⟩ := Machine.instr_cases i
  · exact decodeWord_encode_dp op cond sf rn rd op2
  · exact decodeWord_of_reserved ((wellFormed_reservedCondition_iff w).1 hwf)
  · obtain ⟨⟨cond, hcond⟩, hclass⟩ := (wellFormed_unassignedClass01_iff w).1 hwf
    exact decodeWord_of_class01 hcond hclass
  · obtain ⟨⟨cond, hcond⟩, hclass⟩ := (wellFormed_unassignedClass10_iff w).1 hwf
    exact decodeWord_of_class10 hcond hclass
  · obtain ⟨⟨cond, hcond⟩, hclass⟩ := (wellFormed_unassignedClass11_iff w).1 hwf
    exact decodeWord_of_class11 hcond hclass
  · obtain ⟨⟨cond, hcond⟩, hclass, hform⟩ := (wellFormed_unassignedShiftBit7_iff w).1 hwf
    exact decodeWord_of_shiftBit7 hcond hclass hform

/-! ### The word of the fields read from a word -/

theorem ofBool_getLsbD (w : Word) (k : Nat) : BitVec.ofBool (w.getLsbD k) = w.extractLsb' k 1 := by
  refine (extractLsb'_eq_of_getLsbD fun j hj => ?_).symm
  obtain rfl : j = 0 := by omega
  simp

/-- The operand 2 read from a word has the word's I bit and bits 11:0: nothing of them is dropped (R42). -/
theorem operand2OfWord_bits {w : Word} {op2 : Operand2} (h : operand2OfWord Config.regShiftBit7Set w = some op2) :
    op2.isImm = w.getLsbD 25 ∧ op2.bits = w.extractLsb' 0 12 := by
  have hty := (ShiftType.code_ofCode (w.extractLsb' 5 2)).symm
  cases h25 : w.getLsbD 25 with
  | true =>
    obtain rfl := Option.some.inj (h.symm.trans (operand2OfWord_of_imm h25))
    exact ⟨rfl, BitVec.extractLsb'_append_extractLsb'_eq_extractLsb' rfl⟩
  | false =>
    cases h4 : w.getLsbD 4 with
    | false =>
      obtain rfl := Option.some.inj (h.symm.trans (operand2OfWord_of_shi h25 hty h4))
      refine ⟨rfl, ?_⟩
      show w.extractLsb' 7 5 ++ (ShiftType.ofCode (w.extractLsb' 5 2)).code ++ BitVec.ofBool false ++
        w.extractLsb' 0 4 = _
      rw [← hty, ← h4, ofBool_getLsbD]
      iterate 3 rw [BitVec.extractLsb'_append_extractLsb'_eq_extractLsb' (by rfl)]
    | true =>
      cases h7 : w.getLsbD 7 with
      | false =>
        obtain rfl := Option.some.inj (h.symm.trans (operand2OfWord_of_shr h25 hty h4 h7))
        refine ⟨rfl, ?_⟩
        show w.extractLsb' 8 4 ++ BitVec.ofBool false ++ (ShiftType.ofCode (w.extractLsb' 5 2)).code ++
          BitVec.ofBool true ++ w.extractLsb' 0 4 = _
        rw [← hty, ← h4, ← h7, ofBool_getLsbD, ofBool_getLsbD]
        iterate 4 rw [BitVec.extractLsb'_append_extractLsb'_eq_extractLsb' (by rfl)]
      | true =>
        rw [(operand2OfWord_eq_none w).2 ⟨h25, h4, h7⟩] at h
        cases h

/-- The instruction that a word of class 00 decodes to is encoded as that word (R41, R59). -/
theorem encode_decodeWord_dp {w : Word} {cond : Cond} {op2 : Operand2}
    (hcond : Cond.ofCode (w.extractLsb' 28 4) = some cond) (hclass : w.extractLsb' 26 2 = 0b00#2)
    (hop2 : operand2OfWord Config.regShiftBit7Set w = some op2) : encode (decodeWord w) = w := by
  obtain ⟨himm, hbits⟩ := operand2OfWord_bits hop2
  rw [decodeWord_eq_dp hcond hclass hop2, encode_dp, encodeDp, Cond.code_of_ofCode _ _ hcond, ← hclass, himm, hbits,
    AluOp.code_ofCode, ofBool_getLsbD, ofBool_getLsbD]
  show w.extractLsb' 28 4 ++ w.extractLsb' 26 2 ++ w.extractLsb' 25 1 ++ w.extractLsb' 21 4 ++ w.extractLsb' 20 1 ++
    w.extractLsb' 16 4 ++ w.extractLsb' 12 4 ++ w.extractLsb' 0 12 = w
  iterate 7 rw [BitVec.extractLsb'_append_extractLsb'_eq_extractLsb' (by rfl)]
  exact BitVec.extractLsb'_eq_self

/-- Settles O2: every word is of one of the faulting rows, which carry the word itself, or its instruction is encoded
from the fields read. -/
theorem encodeInvertsDecode : Obligations.EncodeInvertsDecode := by
  unfold Obligations.EncodeInvertsDecode
  intro w
  cases hcode : Cond.ofCode (w.extractLsb' 28 4) with
  | none =>
    have hreserved := (Cond.ofCode_eq_none _).1 hcode
    rw [decodeWord_of_reserved hreserved]
    exact ⟨rfl, (wellFormed_reservedCondition_iff w).2 hreserved⟩
  | some cond =>
    have hclasses : ∀ c : BitVec 2, c = 0b00#2 ∨ c = 0b01#2 ∨ c = 0b10#2 ∨ c = 0b11#2 := by decide
    obtain hclass | hclass | hclass | hclass := hclasses (w.extractLsb' 26 2)
    · cases hop2 : operand2OfWord Config.regShiftBit7Set w with
      | none =>
        have hform := (operand2OfWord_eq_none w).1 hop2
        rw [decodeWord_of_shiftBit7 hcode hclass hform]
        exact ⟨rfl, (wellFormed_unassignedShiftBit7_iff w).2 ⟨⟨cond, hcode⟩, hclass, hform⟩⟩
      | some op2 =>
        refine ⟨encode_decodeWord_dp hcode hclass hop2, ?_⟩
        rw [decodeWord_eq_dp hcode hclass hop2, wellFormed_dp]
    · rw [decodeWord_of_class01 hcode hclass]
      exact ⟨rfl, (wellFormed_unassignedClass01_iff w).2 ⟨⟨cond, hcode⟩, hclass⟩⟩
    · rw [decodeWord_of_class10 hcode hclass]
      exact ⟨rfl, (wellFormed_unassignedClass10_iff w).2 ⟨⟨cond, hcode⟩, hclass⟩⟩
    · rw [decodeWord_of_class11 hcode hclass]
      exact ⟨rfl, (wellFormed_unassignedClass11_iff w).2 ⟨⟨cond, hcode⟩, hclass⟩⟩

/-- Settles O5: eleven words, each evaluated by the decoder. -/
theorem sampleWordsDecode : Obligations.SampleWordsDecode := by
  unfold Obligations.SampleWordsDecode
  decide

end Sys2Proof
end

section
/-! SUPPORT. The shifts by an immediate and by a register amount (spec/41_barrel_shifter.md R72 to R81), and the
statements O27 to O31. -/

namespace Sys2Proof.Machine

/-- Settles O27: amount 0 by its own case, any other as a shift of that many positions. -/
theorem lslByImmediate : Obligations.LslByImmediate := by
  unfold Obligations.LslByImmediate
  refine fun s rm => ⟨rfl, rfl, fun n hn => ?_⟩
  rw [State.shifterOperand_shi_of_ne_zero s .lsl rm hn, shiftBy, shiftLsl]
  exact ⟨by rw [BitVec.toNat_shiftLeft, Nat.shiftLeft_eq], rfl⟩

/-- Amount 0 of every type but LSL is 32, with carry-out bit 31 of the operand (R73 to R75, D5). -/
theorem shifterOperand_shi_zero_carry (s : State) (rm : Reg) {ty : ShiftType} (h : ty ≠ .lsl) :
    (s.shifterOperand (.shi 0#5 ty rm)).carry = (s.readOperand rm).getLsbD 31 := by
  rw [State.shifterOperand_shi_zero, show (s.readOperand rm).getLsbD 31 = (s.readOperand rm).msb from
    (BitVec.msb_eq_getLsbD_last _).symm]
  cases ty with
  | lsl => exact absurd rfl h
  | lsr | asr | ror => rfl

/-- Settles O28: amount 0 by its own case, any other as a shift of that many positions. -/
theorem lsrByImmediate : Obligations.LsrByImmediate := by
  unfold Obligations.LsrByImmediate
  refine fun s rm => ⟨rfl, shifterOperand_shi_zero_carry s rm (by decide), fun n hn => ?_⟩
  rw [State.shifterOperand_shi_of_ne_zero s .lsr rm hn, shiftBy, shiftLsr]
  exact ⟨by rw [BitVec.toNat_ushiftRight, Nat.shiftRight_eq_div_pow], rfl⟩

/-- Settles O29: amount 0 by its own case, any other by the bits of the shifted word. -/
theorem asrByImmediate : Obligations.AsrByImmediate := by
  unfold Obligations.AsrByImmediate
  refine fun s rm => ⟨?zeroValue, shifterOperand_shi_zero_carry s rm (by decide), fun n hn => ?_⟩
  case zeroValue => rw [State.shifterOperand_shi_zero, shiftImmZero, BitVec.msb_eq_getLsbD_last]
  rw [State.shifterOperand_shi_of_ne_zero s .asr rm hn, shiftBy, shiftAsr]
  exact ⟨fun k hk => sshiftRight_getLsbD _ _ hk, rfl⟩

/-- The bit that a rotation by 1 to 31 moves to the top is the last one it moves out (R75). -/
theorem rotateRight_getLsbD_31 (v : Word) {n : Nat} (hpos : 0 < n) (hlt : n < 32) :
    (v.rotateRight n).getLsbD 31 = v.getLsbD (n - 1) := by
  have hindex : (31 + n) % 32 = n - 1 := by omega
  rw [rotateRight_getLsbD v n (by decide), hindex]

/-- Settles O30: amount 0 by its own case, any other by the bits of the rotated word. -/
theorem rorByImmediate : Obligations.RorByImmediate := by
  unfold Obligations.RorByImmediate
  refine fun s rm => ⟨rfl, shifterOperand_shi_zero_carry s rm (by decide), fun n hn => ?_⟩
  have hpos : 0 < n.toNat := Nat.pos_of_ne_zero fun h => hn (BitVec.eq_of_toNat_eq h)
  rw [State.shifterOperand_shi_of_ne_zero s .ror rm hn, shiftBy, shiftRor]
  exact ⟨fun k hk => rotateRight_getLsbD _ _ hk, rfl, (rotateRight_getLsbD_31 _ hpos n.isLt).symm⟩

/-- The mask of the low byte keeps five bits: the amount is counted modulo 32 (R49, R76). -/
theorem regShiftAmount_eq_mod (rs : Word) : regShiftAmount rs = rs.toNat % 32 := by
  have hmask : Config.regShiftAmountMask.toNat = 2 ^ 5 - 1 := rfl
  rw [regShiftAmount, BitVec.toNat_and, hmask, Nat.and_two_pow_sub_one_eq_mod, BitVec.extractLsb'_toNat]
  omega

@[simp] theorem State.shifterOperand_shr (s : State) (rs : Reg) (ty : ShiftType) (rm : Reg) :
    s.shifterOperand (.shr rs ty rm) = shiftReg ty (s.readOperand rm) (s.readOperand rs) (s.psr .C) := rfl

/-- Settles O31: the masked amount is the amount modulo 32, and both register forms shift by it. -/
theorem registerAmountsUseFiveBits : Obligations.RegisterAmountsUseFiveBits := by
  unfold Obligations.RegisterAmountsUseFiveBits
  intro s ty rm rs
  rw [State.shifterOperand_shr, shiftReg, regShiftAmount_eq_mod]
  refine ⟨fun hzero => if_pos hzero, fun hne => ?_⟩
  have hamount : (BitVec.ofNat 5 ((s.readOperand rs).toNat % 32)).toNat = (s.readOperand rs).toNat % 32 := by
    rw [BitVec.toNat_ofNat, Nat.mod_mod]
  have hshamt : BitVec.ofNat 5 ((s.readOperand rs).toNat % 32) ≠ 0#5 := fun h => hne (by rw [← hamount, h]; rfl)
  rw [if_neg hne, State.shifterOperand_shi_of_ne_zero s ty rm hshamt, hamount]

end Sys2Proof.Machine
end

section
/-! SUPPORT. The remaining operations (spec/42_alu_logical.md R94 to R100; 43_alu_arithmetic.md R116 to R119): what
an operation does not use, register 15 as an operand and a destination, and the statements O37, O41, O43, O44, O45
and O48. -/

namespace Sys2Proof.Machine

/-- Settles O37: each is encoded with its own code, and its effect is that of its group with a destination. -/
theorem complementingOperationsWriteTheirResult : Obligations.ComplementingOperationsWriteTheirResult := by
  unfold Obligations.ComplementingOperationsWriteTheirResult
  exact ⟨⟨encodedWith_code .bic, logicalRun_of_effect fun _ _ _ _ _ => rfl⟩,
    ⟨encodedWith_code .mvn, logicalRun_of_effect fun _ _ _ _ _ => rfl⟩⟩

/-- Settles O41: each is encoded with its own code, and its effect is the adder on the difference whose minuend is
operand 2. -/
theorem reverseSubtractionsWriteTheDifference : Obligations.ReverseSubtractionsWriteTheDifference := by
  unfold Obligations.ReverseSubtractionsWriteTheDifference
  refine ⟨⟨encodedWith_code .rsb, arithmeticRun_of_effect (g := fun a b _ => addWithCarry b (~~~a) true)
      (fun _ _ _ _ _ => rfl) (fun a b _ => addWithCarry_not_true_result b a)
      (fun a b _ => addWithCarry_not_true_carry_iff b a) fun a b _ => ?rsb⟩,
    ⟨encodedWith_code .rsc, arithmeticRun_of_effect (g := fun a b c => addWithCarry b (~~~a) c)
      (fun _ _ _ _ _ => rfl) (fun a b c => addWithCarry_not_result b a c)
      (fun a b c => addWithCarry_not_carry_iff b a c) fun a b c => ?rsc⟩⟩
  case rsb => rw [addWithCarry_not_overflow_iff_msb, addWithCarry_not_true_result]
  case rsc => rw [addWithCarry_not_overflow_iff_msb, addWithCarry_not_result]

/-- Settles O43: CMN is encoded with its own code, and its effect is the adder on the sum without a destination. -/
theorem compareNegativeAdds : Obligations.CompareNegativeAdds := by
  unfold Obligations.CompareNegativeAdds
  refine ⟨encodedWith_code .cmn, arithmeticRun_of_effect (g := fun a b _ => addWithCarry a b false)
    (fun _ _ _ _ _ => rfl) (fun a b _ => addWithCarry_false_result a b)
    (fun a b _ => addWithCarry_carry_iff a b false) fun a b _ => ?_⟩
  have hoverflow := addWithCarry_overflow_iff_toInt a b false
  rwa [Bool.toNat_false, Nat.cast_zero, add_zero] at hoverflow

/-! ### What an operation does not use -/

/-- Without a destination and with S = 0 an operation has no effect (R56, R100, D15). -/
theorem aluEffect_of_writesDest_eq_false {op : AluOp} (h : op.writesDest = false) (rn rd : Reg) (op2 : Operand2)
    (s : State) : aluEffect op false rn rd op2 s = s := by
  have heffect := aluEffect_cases op false rn rd op2 s
  simp only [h, Bool.false_eq_true, if_false] at heffect
  obtain ⟨-, f, heffect⟩ | ⟨-, g, heffect⟩ := heffect <;> exact heffect

/-- Settles O44: a comparison writes no register, and with S = 0 it has no effect, so the condition makes no
difference. -/
theorem comparisonsWithoutFlagSettingDoNothing : Obligations.ComparisonsWithoutFlagSettingDoNothing := by
  unfold Obligations.ComparisonsWithoutFlagSettingDoNothing
  refine fun op cond sf rn rd op2 s h => ⟨exec_noRegister h cond sf rn rd op2 s, ?_⟩
  rw [exec_dp, conditionally, aluEffect_of_writesDest_eq_false h, ite_self]

/-- MOV and MVN do not read Rn (R55, R95, R96). -/
theorem aluEffect_rn_irrelevant {op : AluOp} (h : op = .mov ∨ op = .mvn) (sf : Bool) (rn rn' rd : Reg)
    (op2 : Operand2) : aluEffect op sf rn rd op2 = aluEffect op sf rn' rd op2 := by
  obtain rfl | rfl := h <;> rfl

/-- A comparison does not use Rd (R55). -/
theorem aluEffect_rd_irrelevant {op : AluOp} (h : op.writesDest = false) (sf : Bool) (rn rd rd' : Reg)
    (op2 : Operand2) : aluEffect op sf rn rd op2 = aluEffect op sf rn rd' op2 := by
  cases op with
  | tst | teq | cmp | cmn => rfl
  | and | eor | sub | rsb | add | adc | sbc | rsc | orr | mov | bic | mvn => cases h

/-- Settles O45: the effect of MOV and MVN is the same for every Rn, that of a comparison for every Rd. -/
theorem unusedRegisterFieldsAreIgnored : Obligations.UnusedRegisterFieldsAreIgnored := by
  unfold Obligations.UnusedRegisterFieldsAreIgnored
  refine ⟨fun op cond sf rn rn' rd op2 s h => ?_, fun op cond sf rn rd rd' op2 s h => ?_⟩
  · rw [exec_dp, exec_dp, aluEffect_rn_irrelevant h sf rn rn']
  · rw [exec_dp, exec_dp, aluEffect_rd_irrelevant h sf rn rd rd']

/-! ### Register 15 as an operand and as a destination -/

/-- MOV of an unshifted register copies its stored value, and keeps the CPSR below the flags (R72, R96). -/
theorem exec_mov_register {cond : Cond} {s : State} (hcond : s.passes cond = true) (sf : Bool) (rn rd rm : Reg) :
    ∃ t, exec (.movShi cond sf rn rd 0#5 .lsl rm) s = .next t ∧ t.readReg rd = s.readReg rm ∧
      t.cpsr.extractLsb' 0 28 = s.cpsr.extractLsb' 0 28 := by
  have hmov : Claims.LogicalRun .mov true fun _ b => b := logicalRun_of_effect fun _ _ _ _ _ => rfl
  obtain ⟨t, hexec, ⟨hrd, -⟩, -, -, -, -, -, -, hlow⟩ := hmov cond sf rn rd (.shi 0#5 .lsl rm) s hcond
  exact ⟨t, hexec, hrd.trans (s.readOperand_eq rm), hlow⟩

/-- Settles O48: register 15 is read and written like any register, so a MOV of it and a MOV to it are copies. -/
theorem programCounterIsAnOrdinaryOperand : Obligations.ProgramCounterIsAnOrdinaryOperand := by
  unfold Obligations.ProgramCounterIsAnOrdinaryOperand
  refine ⟨State.readOperand_eq, fun cond sf rn rd s hcond => ?_, fun cond sf rn rm s hcond =>
    exec_mov_register hcond sf rn 15 rm⟩
  obtain ⟨t, hexec, hrd, -⟩ := exec_mov_register hcond sf rn rd 15
  exact ⟨t, hexec, hrd⟩

end Sys2Proof.Machine
end

section
/-! SUPPORT. How many entries of the dispatch table are assigned (spec/44_dispatch_table.md R133), and the statement
O8. -/

namespace Sys2Proof.Machine

/-- In whole periods of a periodic test, each period passes it as often as the first. -/
theorem length_filter_range_of_periodic {q : Nat → Bool} {d : Nat} (hq : ∀ k, q (d + k) = q k) (m : Nat) :
    ((List.range (m * d)).filter q).length = m * ((List.range d).filter q).length := by
  induction m with
  | zero => simp
  | succ m ih =>
    have hperiod : q ∘ (d + ·) = q := funext hq
    rw [Nat.succ_mul, Nat.add_comm, List.range_add, List.filter_append, List.filter_map, hperiod, List.length_append,
      List.length_map, ih, Nat.succ_mul, Nat.add_comm]

/-- Every index of a half of class 00 is an index of a block, with the same low nibble (R132). -/
theorem exists_blockIndex (imm : Bool) {k : Nat} (hk : k < 512) :
    ∃ op sf, BitVec.ofNat 12 (imm.toNat * 512 + k) = blockIndex op sf imm (k % 16) := by
  refine ⟨AluOp.ofCode (BitVec.ofNat 4 (k / 32)), decide (k / 16 % 2 = 1), ?_⟩
  have hsf : (decide (k / 16 % 2 = 1)).toNat = k / 16 % 2 := by
    rcases Nat.mod_two_eq_zero_or_one (k / 16) with h | h <;> simp [h]
  rw [blockIndex, AluOp.code_ofCode, BitVec.toNat_ofNat, hsf]
  congr 1
  omega

theorem ofNat_four_mod (k : Nat) : BitVec.ofNat 4 (k % 16) = BitVec.ofNat 4 k :=
  BitVec.eq_of_toNat_eq (by rw [BitVec.toNat_ofNat, BitVec.toNat_ofNat, Nat.mod_mod])

/-- The assigned entries of the register half or the immediate half of class 00: as many in each of its 32 runs of
sixteen as there are low nibbles with an operand encoding (R132, R133). -/
theorem assigned_half (mode : RegShiftBit7) (imm : Bool) :
    ((List.range 512).filter fun k => (handlerAt mode (BitVec.ofNat 12 (imm.toNat * 512 + k))).isSome).length =
      32 * ((List.range 16).filter fun k => (encodingAt mode imm (BitVec.ofNat 4 k)).isSome).length := by
  have hentry : ∀ k ∈ List.range 512, (handlerAt mode (BitVec.ofNat 12 (imm.toNat * 512 + k))).isSome =
      (encodingAt mode imm (BitVec.ofNat 4 k)).isSome := by
    intro k hk
    obtain ⟨op, sf, hindex⟩ := exists_blockIndex imm (List.mem_range.1 hk)
    rw [hindex, handlerAt_blockIndex mode op sf imm (Nat.mod_lt k (by decide)), Option.isSome_map, ofNat_four_mod]
  rw [List.filter_congr hentry, show 512 = 32 * 16 from rfl, length_filter_range_of_periodic]
  exact fun k => by rw [← ofNat_four_mod, Nat.add_mod_left, ofNat_four_mod]

/-- No entry at or above 0x400 is assigned (R132). -/
theorem assigned_above (mode : RegShiftBit7) :
    ((List.range 3072).filter fun k => (handlerAt mode (BitVec.ofNat 12 (1024 + k))).isSome).length = 0 := by
  rw [List.length_eq_zero_iff, List.filter_eq_nil_iff]
  intro k hk
  have hlt := List.mem_range.1 hk
  have hclass : (BitVec.ofNat 12 (1024 + k)).extractLsb' 10 2 ≠ 0b00#2 := by
    rw [ne_eq, index_class_eq_zero_iff, BitVec.toNat_ofNat]
    omega
  rw [handlerAt_of_class_ne_zero mode hclass]
  decide

/-- Settles O8: the entries of each half by their low nibbles, and none above. -/
theorem dispatchTableCounts : Obligations.DispatchTableCounts := by
  unfold Obligations.DispatchTableCounts
  have register (mode : RegShiftBit7) := assigned_half mode false
  have immediate (mode : RegShiftBit7) := assigned_half mode true
  rw [Bool.toNat_false, Nat.zero_mul] at register
  rw [Bool.toNat_true, Nat.one_mul] at immediate
  exact ⟨(register .fault).trans (by decide), (immediate .fault).trans (by decide), assigned_above .fault,
    (register .ignoreBit7).trans (by decide), (immediate .ignoreBit7).trans (by decide), assigned_above .ignoreBit7⟩

end Sys2Proof.Machine
end

section
/-! SUPPORT. What every step keeps and what it cannot see (spec/10_state.md R11, R17, R19 to R22; 20_memory.md R30,
R32), the condition evaluator and reset, and the statements O13 to O16, O26, O52 and O53. -/

namespace Sys2Proof.Machine

/-! ### The invariant -/

/-- A running engine has no fault latched. -/
theorem State.latchHonest_of_running {s : State} (h : s.status = .running) : s.latchHonest := by
  rw [State.latchHonest, h]
  trivial

/-- Settles O13: a step keeps memory, and a fault it raises is called for by the word at its fetch address, which the
latch does not move. -/
theorem stepKeepsTheInvariant : Obligations.StepKeepsTheInvariant := by
  unfold Obligations.StepKeepsTheInvariant
  intro s t hinv hstep
  cases hstatus : s.status with
  | halted cause insn addr =>
    rw [step_halted hstatus] at hstep
    cases hstep
    exact hinv
  | running =>
    obtain ⟨hwf, -⟩ := hinv
    obtain ⟨hmem, -⟩ := step_mem_and_cpsr_low hstep
    refine ⟨by rw [hmem, hwf], ?_⟩
    obtain ⟨u, hu, houtcome⟩ := everyStepSkipsExecutesOrFaults s hstatus
    rw [hstep] at hu
    cases hu
    obtain ⟨-, rfl⟩ | ⟨-, -, -, -, -, -, -, -, -, hrunning⟩ | ⟨cause, hdeserves, rfl⟩ := houtcome
    · exact State.latchHonest_of_running hstatus
    · exact State.latchHonest_of_running hrunning
    · exact ⟨rfl, rfl, hdeserves⟩

/-- Settles O14: memory lists nothing, and the engine runs. -/
theorem resetMeetsTheInvariant : Obligations.ResetMeetsTheInvariant :=
  ⟨Memory.wf_reset, State.latchHonest_of_running rfl⟩

/-! ### The frame of a step -/

/-- Settles O15: an execution keeps the frame of its operation, and a skip and a fault touch none of it. -/
theorem stepLeavesInertStateAndMemory : Obligations.StepLeavesInertStateAndMemory := by
  unfold Obligations.StepLeavesInertStateAndMemory
  intro s t hstep
  obtain ⟨-, op, -, sf, rn, rd, op2, -, -, rfl⟩ | rfl | ⟨-, cause, insn, rfl⟩ := step_cases hstep
  · obtain ⟨hbanks, hspsr, -, hmem, hlow, -⟩ := aluEffect_frame op sf rn rd op2 s
    exact ⟨hbanks, hspsr, hmem, fun a => by rw [hmem], hlow⟩
  · exact ⟨rfl, rfl, rfl, fun a => rfl, rfl⟩
  · exact ⟨rfl, rfl, rfl, fun a => rfl, rfl⟩

/-! ### What a step cannot see of the CPSR -/

/-- A CPSR with the flags and T of `p` and every other bit of `k` (R13). -/
def Psr.withUnseen (p k : Word) : Word := (p &&& 0xF0000020#32) ||| (k &&& 0x0FFFFFDF#32)

/-- The state with another mode, other masks and unnamed CPSR bits, other shadow registers and saved PSRs. -/
def State.withUnseen (s : State) (k : Word) (b : Banks) (p : SavedPsrs) : State :=
  { s with cpsr := Psr.withUnseen s.cpsr k, banks := b, spsr := p }

theorem Psr.withUnseen_getLsbD (p k : Word) (j : Nat) :
    (Psr.withUnseen p k).getLsbD j = if (0xF0000020#32).getLsbD j then p.getLsbD j else k.getLsbD j := by
  have hmask : 0x0FFFFFDF#32 = ~~~0xF0000020#32 := rfl
  rw [Psr.withUnseen, hmask, BitVec.getLsbD_or, BitVec.getLsbD_and, BitVec.getLsbD_and, BitVec.getLsbD_not]
  cases (0xF0000020#32).getLsbD j with
  | true => simp
  | false => simpa using fun hbit => BitVec.lt_of_getLsbD hbit

/-- A flag write commutes with replacing the bits below the flags. -/
theorem Psr.writeNzcv_withUnseen (p k : Word) (n z c v : Bool) :
    Psr.writeNzcv (Psr.withUnseen p k) n z c v = Psr.withUnseen (Psr.writeNzcv p n z c v) k := by
  apply BitVec.eq_of_getLsbD_eq
  intro j hj
  rw [Psr.withUnseen_getLsbD, Psr.writeNzcv_getLsbD, Psr.withUnseen_getLsbD, Psr.writeNzcv_getLsbD]
  by_cases hlow : j < 28
  · simp only [if_pos hlow]
  · obtain rfl | rfl | rfl | rfl : j = 28 ∨ j = 29 ∨ j = 30 ∨ j = 31 := by omega
    all_goals rfl

section
variable (s : State) (k : Word) (b : Banks) (p : SavedPsrs)

/-- The flags and T are seen. -/
theorem State.withUnseen_psr {f : PsrBit} (h : (0xF0000020#32).getLsbD f.pos = true) :
    (s.withUnseen k b p).psr f = s.psr f := by
  show (Psr.withUnseen s.cpsr k).getLsbD f.pos = _
  rw [Psr.withUnseen_getLsbD, if_pos h]
  rfl

@[simp] theorem State.withUnseen_N : (s.withUnseen k b p).psr .N = s.psr .N := s.withUnseen_psr k b p rfl
@[simp] theorem State.withUnseen_Z : (s.withUnseen k b p).psr .Z = s.psr .Z := s.withUnseen_psr k b p rfl
@[simp] theorem State.withUnseen_C : (s.withUnseen k b p).psr .C = s.psr .C := s.withUnseen_psr k b p rfl
@[simp] theorem State.withUnseen_V : (s.withUnseen k b p).psr .V = s.psr .V := s.withUnseen_psr k b p rfl
@[simp] theorem State.withUnseen_T : (s.withUnseen k b p).psr .T = s.psr .T := s.withUnseen_psr k b p rfl

@[simp] theorem State.withUnseen_status : (s.withUnseen k b p).status = s.status := rfl
@[simp] theorem State.withUnseen_mem : (s.withUnseen k b p).mem = s.mem := rfl
@[simp] theorem State.withUnseen_readReg (i : Reg) : (s.withUnseen k b p).readReg i = s.readReg i := rfl
@[simp] theorem State.withUnseen_readOperand (i : Reg) : (s.withUnseen k b p).readOperand i = s.readOperand i := rfl

@[simp] theorem State.withUnseen_fetchAddr : (s.withUnseen k b p).fetchAddr = s.fetchAddr := by
  simp [State.fetchAddr]

@[simp] theorem State.withUnseen_fetchedWord : (s.withUnseen k b p).fetchedWord = s.fetchedWord := by
  simp [State.fetchedWord]

@[simp] theorem State.withUnseen_evaluates (w : Word) : (s.withUnseen k b p).evaluates w = s.evaluates w := by
  simp [State.evaluates]

@[simp] theorem State.withUnseen_shifterOperand (op2 : Operand2) :
    (s.withUnseen k b p).shifterOperand op2 = s.shifterOperand op2 := by
  cases op2 <;> simp [State.shifterOperand]

@[simp] theorem State.withUnseen_raiseDecodeFault (cause : DecodeFault) (insn : Word) :
    (s.withUnseen k b p).raiseDecodeFault cause insn = (s.raiseDecodeFault cause insn).withUnseen k b p := by
  rw [State.raiseDecodeFault, State.withUnseen_fetchAddr]
  rfl

@[simp] theorem State.withUnseen_writeDest (dest : Option Reg) (v : Word) :
    (s.withUnseen k b p).writeDest dest v = (s.writeDest dest v).withUnseen k b p := by
  cases dest <;> rfl

@[simp] theorem State.withUnseen_setFlags (r : Word) (c v : Bool) :
    (s.withUnseen k b p).setFlags r c v = (s.setFlags r c v).withUnseen k b p := by
  show { s.withUnseen k b p with cpsr := Psr.writeNzcv (Psr.withUnseen s.cpsr k) r.msb (r == 0#32) c v } = _
  rw [Psr.writeNzcv_withUnseen]
  rfl

theorem logicalEffect_withUnseen (f : Word → Word → Word) (sf : Bool) (rn : Reg) (dest : Option Reg)
    (op2 : Operand2) :
    logicalEffect f sf rn dest op2 (s.withUnseen k b p) = (logicalEffect f sf rn dest op2 s).withUnseen k b p := by
  cases sf <;> simp [logicalEffect]

theorem arithmeticEffect_withUnseen (g : Word → Word → Bool → Sum) (sf : Bool) (rn : Reg) (dest : Option Reg)
    (op2 : Operand2) :
    arithmeticEffect g sf rn dest op2 (s.withUnseen k b p) =
      (arithmeticEffect g sf rn dest op2 s).withUnseen k b p := by
  cases sf <;> simp [arithmeticEffect]

/-- No operation reads the mode, the masks, the unnamed bits, the shadow registers or the saved PSRs, or sets them from
anything but themselves. -/
theorem aluEffect_withUnseen (op : AluOp) (sf : Bool) (rn rd : Reg) (op2 : Operand2) :
    aluEffect op sf rn rd op2 (s.withUnseen k b p) = (aluEffect op sf rn rd op2 s).withUnseen k b p := by
  cases op with
  | and | eor | tst | teq | orr | mov | bic | mvn =>
    simp only [aluEffect, andEffect, eorEffect, tstEffect, teqEffect, orrEffect, movEffect, bicEffect, mvnEffect,
      logicalEffect_withUnseen]
  | sub | rsb | add | adc | sbc | rsc | cmp | cmn =>
    simp only [aluEffect, subEffect, rsbEffect, addEffect, adcEffect, sbcEffect, rscEffect, cmpEffect, cmnEffect,
      arithmeticEffect_withUnseen]

/-- Replacing what is not seen before a step is replacing it after the step. -/
theorem tableStep_withUnseen : tableStep (s.withUnseen k b p) = (tableStep s).withUnseen k b p := by
  simp only [tableStep, State.withUnseen_status, State.withUnseen_fetchedWord, State.withUnseen_evaluates]
  cases s.status with
  | halted cause insn addr => rfl
  | running =>
    cases s.evaluates s.fetchedWord with
    | none => exact s.withUnseen_raiseDecodeFault k b p _ _
    | some passes =>
      cases passes with
      | false => rfl
      | true =>
        cases handlerAt Config.regShiftBit7Set (dispatchIndex s.fetchedWord) with
        | none => exact s.withUnseen_raiseDecodeFault k b p _ _
        | some h => exact aluEffect_withUnseen ..

end

/-- Settles O16: the step over the table commutes with the replacement. -/
theorem modeMasksAndBanksAreInvisible : Obligations.ModeMasksAndBanksAreInvisible := by
  unfold Obligations.ModeMasksAndBanksAreInvisible
  intro s k b p other t hstep
  rw [stepIsTheDispatchTableStep s] at hstep
  cases hstep
  exact (stepIsTheDispatchTableStep (other s)).trans (congrArg _ (tableStep_withUnseen s k b p))

/-! ### The condition evaluator -/

/-- The condition of each code (R61, R62). -/
theorem ofCode_range : (List.range 16).map (fun code => Cond.ofCode (BitVec.ofNat 4 code)) =
    [some .eq, some .ne, some .cs, some .cc, some .mi, some .pl, some .vs, some .vc, some .hi, some .ls, some .ge,
      some .lt, some .gt, some .le, some .al, none] := by
  decide

/-- Settles O26: the condition of each code, on all flags. -/
theorem conditionTruthTable : Obligations.ConditionTruthTable := by
  unfold Obligations.ConditionTruthTable
  intro n z c v
  have hmap : (List.range 16).map (fun code => conditionPassed (BitVec.ofNat 4 code) n z c v) =
      ((List.range 16).map fun code => Cond.ofCode (BitVec.ofNat 4 code)).map
        (Option.map fun cond => condPasses cond n z c v) := by
    rw [List.map_map]
    rfl
  rw [hmap, ofCode_range]
  revert n z c v
  decide

/-! ### Reset -/

theorem State.hostReset_fetchAddr (s : State) : s.hostReset.fetchAddr = 0#32 := by
  rw [State.fetchAddr, State.hostReset_readReg, State.reset_readReg]
  cases s.hostReset.psr .T <;> rfl

/-- Settles O52: reset leaves constants in every field but memory, which it keeps. -/
theorem resetSetsThePsrAndTheStatus : Obligations.ResetSetsThePsrAndTheStatus := by
  unfold Obligations.ResetSetsThePsrAndTheStatus
  intro s t
  have bit (b : PsrBit) : t.psr b = Psr.readBit Config.resetCpsr b := rfl
  exact ⟨rfl, (by decide : Psr.readMode Config.resetCpsr = 0b10011#5), (bit .I).trans (by decide),
    (bit .F).trans (by decide), (bit .T).trans (by decide),
    ⟨(bit .N).trans (by decide), (bit .Z).trans (by decide), (bit .C).trans (by decide), (bit .V).trans (by decide)⟩,
    (by decide : Psr.unnamed Config.resetCpsr = 0#20), rfl, rfl, rfl, rfl, s.hostReset_fetchAddr, rfl⟩

/-! ### Canonical memories -/

namespace Memory

theorem read_cons_self (k : Nat) (v : Byte) (m : List Host.Cell) : read ((k, v) :: m) k = v := if_pos rfl

theorem read_cons_of_ne {k a : Nat} (h : k ≠ a) (v : Byte) (m : List Host.Cell) : read ((k, v) :: m) a = read m a :=
  if_neg h

/-- The parts of the canonical form of a memory that lists a byte. -/
theorem wfFrom_cons_iff (lo k : Nat) (v : Byte) (m : List Host.Cell) :
    wfFrom lo ((k, v) :: m) = true ↔ lo ≤ k ∧ k < 2 ^ 32 ∧ v ≠ Config.unlistedByte ∧ wfFrom (k + 1) m = true := by
  simp only [wfFrom, Bool.and_eq_true, decide_eq_true_eq, and_assoc]

/-- A listed byte shows: a memory that reads like one which lists address `k` is not canonical from above `k`. -/
theorem not_wfFrom_of_read_eq {lo lo' k : Nat} {v : Byte} {m m' : List Host.Cell}
    (hm : wfFrom lo ((k, v) :: m) = true) (hread : read ((k, v) :: m) k = read m' k) (hk : k < lo') :
    wfFrom lo' m' ≠ true := by
  intro hm'
  obtain ⟨-, -, hv, -⟩ := (wfFrom_cons_iff lo k v m).1 hm
  rw [read_cons_self, read_of_lt m' lo' k hm' hk] at hread
  exact hv hread

/-- The first listed address of a canonical memory is not above that of another which reads alike. -/
theorem first_le_of_read_eq {lo lo' k k' : Nat} {v v' : Byte} {m m' : List Host.Cell}
    (hm : wfFrom lo ((k, v) :: m) = true) (hm' : wfFrom lo' ((k', v') :: m') = true)
    (hread : ∀ a, read ((k, v) :: m) a = read ((k', v') :: m') a) : k' ≤ k := by
  by_contra hlt
  obtain ⟨-, hbound, hv', hrest⟩ := (wfFrom_cons_iff lo' k' v' m').1 hm'
  exact not_wfFrom_of_read_eq hm (hread k) (Nat.lt_of_not_le hlt)
    ((wfFrom_cons_iff k' k' v' m').2 ⟨Nat.le_refl k', hbound, hv', hrest⟩)

/-- Canonical memories that read alike list the same bytes: the first of each is the same, and then the rest read
alike. -/
theorem eq_of_read_eq {lo : Nat} {m m' : List Host.Cell} (hm : wfFrom lo m = true) (hm' : wfFrom lo m' = true)
    (hread : ∀ a, read m a = read m' a) : m = m' := by
  induction m generalizing lo m' with
  | nil =>
    cases m' with
    | nil => rfl
    | cons cell' rest' =>
      exact absurd rfl (not_wfFrom_of_read_eq hm' (hread cell'.1).symm (Nat.lt_succ_self cell'.1))
  | cons cell rest ih =>
    obtain ⟨k, v⟩ := cell
    cases m' with
    | nil => exact absurd rfl (not_wfFrom_of_read_eq hm (hread k) (Nat.lt_succ_self k))
    | cons cell' rest' =>
      obtain ⟨k', v'⟩ := cell'
      obtain rfl : k = k' := Nat.le_antisymm (first_le_of_read_eq hm' hm fun a => (hread a).symm)
        (first_le_of_read_eq hm hm' hread)
      obtain ⟨-, -, -, hrest⟩ := (wfFrom_cons_iff lo k v rest).1 hm
      obtain ⟨-, -, -, hrest'⟩ := (wfFrom_cons_iff lo k v' rest').1 hm'
      have hv := hread k
      rw [read_cons_self, read_cons_self] at hv
      have hreadRest (a : Nat) : read rest a = read rest' a := by
        by_cases ha : k = a
        · rw [read_of_lt rest (k + 1) a hrest (by omega), read_of_lt rest' (k + 1) a hrest' (by omega)]
        · rw [← read_cons_of_ne ha v rest, hread, read_cons_of_ne ha]
      rw [hv, ih hrest hrest' hreadRest]

end Memory

/-- Settles O53: canonical memories that read alike list the same bytes. -/
theorem canonicalMemoriesReadingAlikeAreEqual : Obligations.CanonicalMemoriesReadingAlikeAreEqual := by
  unfold Obligations.CanonicalMemoriesReadingAlikeAreEqual
  exact fun m m' => Memory.eq_of_read_eq

end Sys2Proof.Machine
end

section
/-! SUPPORT. The latched fault (spec/60_exceptions.md R150 to R157): the two decode faults, what the fault interface
shows of them, that the halt lasts until reset, and the statements O12, O18, O19 and O20. -/

namespace Sys2Proof.Machine

/-! ### The halt -/

/-- Any number of steps of a halted engine does nothing (R154 (d)). -/
theorem run_halted {s : State} {cause : DecodeFault} {insn addr : Word} (h : s.status = .halted cause insn addr)
    (k : Nat) : Host.Core.run core k s = .next s := by
  induction k with
  | zero => rfl
  | succ k ih =>
    have hstep : core.step s = .next s := step_halted h
    simp only [Host.Core.run, hstep, ih]

/-- No action of the host but reset touches the engine status (R157). -/
theorem hostAct_status (s : State) {a : HostAction} (h : a ≠ .reset) : (s.hostAct a).status = s.status := by
  cases a with
  | reset => exact absurd rfl h
  | writeReg | writeCpsr | writePsrBit | writeMode | writeByte => rfl

/-- Settles O12: a halted engine's steps do nothing, and of the host's actions reset alone touches the status. -/
theorem haltLastsUntilReset : Obligations.HaltLastsUntilReset := by
  unfold Obligations.HaltLastsUntilReset
  exact fun s cause insn addr h => ⟨run_halted h, fun a ha => (hostAct_status s ha).trans h, rfl⟩

/-! ### The two decode faults -/

/-- Settles O18: a word with code 15 decodes to the reserved row, whose meaning is the fault. -/
theorem reservedConditionHalts : Obligations.ReservedConditionHalts := by
  unfold Obligations.ReservedConditionHalts
  refine ⟨fun s hrunning hcode => ?_, fun insn s => rfl⟩
  rw [step_running hrunning, State.fetchedInstr, decodeWord_of_reserved hcode]
  rfl

/-- Another class than 00, and the register-shift form with bit 7 set, have no entry in the dispatch table (R132,
D6). -/
theorem handlerAt_of_unassigned {w : Word} (h : w.extractLsb' 26 2 ≠ 0b00#2 ∨
    (w.getLsbD 25 = false ∧ w.getLsbD 4 = true ∧ w.getLsbD 7 = true)) :
    handlerAt Config.regShiftBit7Set (dispatchIndex w) = none := by
  rw [handlerAt_dispatchIndex]
  obtain hclass | hform := h
  · rw [if_neg hclass]
  · rw [(operand2OfWord_eq_none w).2 hform, Option.map_none, ite_self]

/-- Settles O19: the table's step faults where there is no entry, and each unassigned row has that effect. -/
theorem unassignedIndexHalts : Obligations.UnassignedIndexHalts := by
  unfold Obligations.UnassignedIndexHalts
  refine ⟨fun s hrunning heval hunassigned => ?step, fun insn s heval => ?rows⟩
  case step =>
    rw [stepIsTheDispatchTableStep s]
    simp only [tableStep, hrunning, heval, handlerAt_of_unassigned hunassigned]
    rfl
  case rows =>
    have hfault {i : Instr} (hrow : i = .unassignedClass01 insn ∨ i = .unassignedClass10 insn ∨
        i = .unassignedClass11 insn ∨ i = .unassignedShiftBit7 insn) :
        exec i s = .next (s.raiseDecodeFault .unassignedIndex insn) := by
      rw [exec_unassigned hrow, unassignedEffect_fault heval]
    exact ⟨hfault (.inl rfl), hfault (.inr (.inl rfl)), hfault (.inr (.inr (.inl rfl))),
      hfault (.inr (.inr (.inr rfl)))⟩

/-! ### The fault interface -/

theorem State.faultCode_running {s : State} (h : s.status = .running) : s.faultCode = 0 := by
  rw [State.faultCode, h]

/-- Settles O20: each outcome of the fetched word shows its own code, and a fault its word and address. -/
theorem faultInterfaceShowsCodeWordAndAddress : Obligations.FaultInterfaceShowsCodeWordAndAddress := by
  unfold Obligations.FaultInterfaceShowsCodeWordAndAddress
  refine ⟨fun s => State.faultCode_running, fun s t hrunning hstep => ?_⟩
  rw [step_running hrunning, State.fetchedInstr] at hstep
  obtain ⟨heval, hexec⟩ | ⟨heval, hexec⟩ | ⟨heval, hnone, hexec⟩ | ⟨heval, h, cond, hsome, -, -, hexec⟩ :=
    exec_decodeWord_cases s.fetchedWord s <;> rw [hexec] at hstep <;> cases hstep
  · exact ⟨iff_of_true rfl heval, by simp [State.faultCode, heval], fun _ => rfl⟩
  · simp [State.faultCode_running hrunning, heval]
  · exact ⟨by simp [State.faultCode, heval], iff_of_true rfl ⟨heval, hnone⟩, fun _ => rfl⟩
  · obtain ⟨-, -, hstatus, -⟩ := aluEffect_frame h.op h.sf (s.fetchedWord.extractLsb' 16 4).toFin
      (s.fetchedWord.extractLsb' 12 4).toFin (h.enc.operand2 s.fetchedWord) s
    have hcode : (h.run s.fetchedWord s).faultCode = 0 := State.faultCode_running (hstatus.trans hrunning)
    have hentry : handlerAt .fault (dispatchIndex s.fetchedWord) = some h := hsome
    simp [hcode, heval, hentry]

end Sys2Proof.Machine
end
